-- ==== Sys2Proof/Word.lean ====
section
/-! DEFINITION. The word types of the AB4832 and the plainest arithmetic on them: bytes, bit tests on
natural numbers, saturating counts, and the sorted tables in which the state keeps numbered resources. -/

namespace Sys2Proof

/-- One byte of a shared-memory structure or of the sideband window (R4). -/
abbrev Byte := BitVec 8

/-- A table of numbered resources (R8): entries in rising order of their number, no number twice.
A number without an entry has the resource's reset value, which the reader names. -/
abbrev Tab (α : Type) := List (Nat × α)

/-- The value of resource `i`, `d` where the table lists none. -/
def Tab.get {α : Type} (d : α) : Tab α → Nat → α
  | [], _ => d
  | (k, v) :: t, i => if k = i then v else Tab.get d t i

/-- The table with resource `i` at `v`; the numbers stay in rising order. -/
def Tab.set {α : Type} : Tab α → Nat → α → Tab α
  | [], i, v => [(i, v)]
  | (k, w) :: t, i, v =>
    if i < k then (i, v) :: (k, w) :: t
    else if i = k then (k, v) :: t
    else (k, w) :: Tab.set t i v

/-- The table with a change made to every resource it lists. -/
def Tab.mapAll {α : Type} (f : Nat → α → α) (t : Tab α) : Tab α := t.map (fun p => (p.1, f p.1 p.2))

/-- Bit `n` of a register or mask. -/
def bit (m n : Nat) : Bool := m.testBit n

/-- Bits `[hi:lo]` of a register value. -/
def bits (v hi lo : Nat) : Nat := (v >>> lo) % 2 ^ (hi + 1 - lo)

/-- A count of one more that stays at `max` once it is there. -/
def satInc (max n : Nat) : Nat := if n < max then n + 1 else max

/-- A count of `k` more that stays at `max` once it is there. -/
def satAdd (max n k : Nat) : Nat := if n + k < max then n + k else max

/-- 0 or 1. -/
def b2n (b : Bool) : Nat := if b then 1 else 0

/-- The numbers below `n` whose bit of the mask is set, in ascending order. -/
def maskList (n m : Nat) : List Nat := (List.range n).filter (fun i => m.testBit i)

/-- The mask of a list of numbers. -/
def listMask (l : List Nat) : Nat := l.foldl (fun m i => m ||| 2 ^ i) 0

/-- The low `w` bits of a signed number, as the manual stores it (two's complement). -/
def twos (w : Nat) (i : Int) : Nat := (i % (2 ^ w : Int)).toNat

/-- The signed reading of a `w`-bit field. -/
def signed (w v : Nat) : Int := if v < 2 ^ (w - 1) then (v : Int) else (v : Int) - 2 ^ w

/-- Little-endian number of a list of bytes (R4). -/
def leNat : List Byte → Nat
  | [] => 0
  | b :: t => b.toNat + 256 * leNat t

/-- The `n` low bytes of `v`, least significant first (R4). -/
def leBytes : Nat → Nat → List Byte
  | 0, _ => []
  | n + 1, v => BitVec.ofNat 8 v :: leBytes n (v / 256)

/-- The smaller of an absolute value and a bound, with the sign kept. -/
def clampInt (lo hi v : Int) : Int := if v < lo then lo else if hi < v then hi else v

/-- Insert by a key, behind equal keys. -/
def insertBy {α : Type} (key : α → Nat) (x : α) : List α → List α
  | [] => [x]
  | y :: t => if key y ≤ key x then y :: insertBy key x t else x :: y :: t

/-- Sort by a key, rising; equal keys keep their order. -/
def sortBy {α : Type} (key : α → Nat) (l : List α) : List α := l.foldl (fun acc x => insertBy key x acc) []

/-- The `n` low bytes of `v` as numbers, least significant first (R4). -/
def le (n v : Nat) : List Nat := (leBytes n v).map BitVec.toNat

/-- Little-endian number of a list of byte values. -/
def ofLe : List Nat → Nat
  | [] => 0
  | b :: t => b % 256 + 256 * ofLe t

end Sys2Proof
end

