-- ==== Sys2Proof/Syntax.lean ====
section
/-! DEFINITION. The commands of the AB4832: one constructor of `Instr` per row of spec/opcode_table.json,
with the row's operands, and the operand types. The 74 Ramcen commands of R133–R158 carry the descriptor's
fields (`Hdr`, R110) and their payload; every other row is an event on a register, a ring, a pin or an engine. -/

namespace Sys2Proof

/-- How a descriptor reached the device: an entry of CMD ring `k` (R77), or a notice of mailbox channel `ch`
(R91), or a notice of the sideband port of MB62 (R103). -/
inductive Via where
  | ring (k : Nat)
  | mbx (ch : Nat)
  | sideband
deriving DecidableEq, Repr

/-- The three register paths (R402): PF0 BAR0, PF1 BAR0, the two-wire window. -/
inductive Path where
  | pf0 | pf1 | tw
deriving DecidableEq, Repr

/-- The master IDs (R8). -/
inductive Master where
  | internal | pf0 | pf1 | sideband | debug
deriving DecidableEq, Repr

/-- The fields of a command descriptor (R110) that the typed payload does not carry. `rsvd` is the OR of every
reserved bit of descriptor and payload, `len` the notice's LEN for a mailbox command (R111), `reply` the address or window
offset of its direct reply (R91). -/
structure Hdr where
  via : Via
  reply : Nat
  tag : Nat
  atLt : Bool
  domain : Nat
  ordered : Bool
  lt : Nat
  payload : Nat
  plen : Nat
  out : Nat
  outlen : Nat
  rsvd : Nat
  len : Nat
deriving DecidableEq, Repr

/-- A CTX_WRITE entry (R145). -/
structure CtxEntry where
  ctx : Nat
  valid : Nat
  taps : Nat
  gain : Nat
  delay : Nat
  shape : Nat
  ramp : Nat
deriving DecidableEq, Repr

/-- A point in 0.1 mm (R176). -/
structure Point where
  x : Int
  y : Int
  z : Int
deriving DecidableEq, Repr

/-- The loop coefficients of CH_LOOP (R214), as the signed or unsigned integers of their wire formats. -/
structure Coef where
  flags : Nat
  vfs : Nat
  kr : Int
  kv : Int
  ki : Int
  kz1 : Int
  kz2 : Int
  kd : Int
  lv : Int
  li : Int
  ld : Int
  phi : List Int
  gamma : List Int
  pre : List Int
  ulim : Nat
  zlim : Nat
  ffAlpha : Nat
deriving DecidableEq, Repr, Inhabited

/-- The thermal constants of PROT_THERMAL (R247). -/
structure ConstSet where
  flags : Nat
  t0 : Int
  ta0 : Int
  rthCm : Nat
  rthMf : Nat
  rthFa : Nat
  cthC : Nat
  cthM : Nat
  cthF : Nat
  ke : Nat
  kc : Nat
  ka : Nat
  tauLong : Nat
  knee : Nat
  horizon : Nat
deriving DecidableEq, Repr, Inhabited

/-- The excursion parameters of PROT_TS (R251). -/
structure TsSet where
  re : Nat
  le : Nat
  bl : Nat
  mms : Nat
  cms : Nat
  rms : Nat
  hpmin : Nat
  hpmax : Nat
  hpthr : Nat
  release : Nat
deriving DecidableEq, Repr, Inhabited

/-- Coefficients of a loop that has had none loaded (log entry 19). -/
def Coef.zero : Coef :=
  { flags := 0, vfs := 8000, kr := 0, kv := 0, ki := 0, kz1 := 0, kz2 := 0, kd := 0, lv := 0, li := 0, ld := 0,
    phi := [], gamma := [], pre := [], ulim := 0, zlim := 0, ffAlpha := 0 }

/-- Thermal constants of profile 0x0000 (R245); the fields that R245 does not state stand at the lowest value of their
range (log entry 20). -/
def ConstSet.generic : ConstSet :=
  { flags := 0, t0 := 250, ta0 := 400, rthCm := 3000, rthMf := 2000, rthFa := 4000, cthC := 1500, cthM := 40000,
    cthF := 120000, ke := 0, kc := 0, ka := 0, tauLong := 1, knee := 10, horizon := 1 }

/-- Excursion parameters of profile 0x0000 (R245); the fields that R245 does not state stand at the lowest value of
their range (log entry 20). -/
def TsSet.generic : TsSet :=
  { re := 6400, le := 0, bl := 30000, mms := 2000, cms := 800000, rms := 600, hpmin := 0, hpmax := 0, hpthr := 16384,
    release := 10 }

/-- What one microphone gave for an output of an acoustic measurement (R300): pre-window noise and response in
0.1 dBFS, SNR in 0.1 dB, arrival in 1/64 sample. -/
structure MicMeas where
  mic : Nat
  noise : Int
  snr : Int
  arrival : Nat
  level : Int
deriving DecidableEq, Repr

/-- The payload form of a ring descriptor (R68). -/
structure RingDesc where
  base : Nat
  log2n : Nat
  type : Nat
  esize : Nat
  domain : Nat
  owner : Nat
  vector : Nat
  state : Nat
  wmark : Nat
  bind : Nat
  head : Nat
  tail : Nat
deriving DecidableEq, Repr

/-- A quiet window of QUIET_WINDOWS (R150, R296). -/
structure QWin where
  start : Nat
  dur : Nat
  period : Nat
deriving DecidableEq, Repr

/-- The header of a firmware image or of the profile library (R346), with the two facts that the digest and
signature checks of R346 find of the staged bytes. -/
structure ImgHdr where
  format : Nat
  version : Nat
  floor : Nat
  length : Nat
  entry : Nat
  digestOk : Bool
  sigStaelkel : Bool
  sigOwner : Bool
deriving DecidableEq, Repr

/-- A Ramcen command with its payload fields in the order of the opcode tables (R136–R158). -/
inductive Cmd where
  | getInfo
  | getSummary
  | cancel (target : Nat)
  | tbRate (dom rate drate lpf : Nat)
  | tbEnable (dom en : Nat)
  | tbTiming (dom mask cable lpres hold : Nat)
  | tbDpll (dom bw : Nat)
  | tbClockmaster (dom : Nat)
  | tbPair (doma domb en : Nat) (offset : Int)
  | mbxConfig (ch set cpl vec tmo upbuf : Nat)
  | restart (mode : Nat)
  | powerState (state : Nat)
  | twConfig (addr2 mmode mask stretch : Nat)
  | chEnable (chmask en dom : Nat)
  | chVolume (chmask : Nat) (vol : Int) (ramp : Nat)
  | chMute (chmask mute ramp : Nat)
  | chBridge (pairs : Nat)
  | chLoop (chmask : Nat) (coef : Coef)
  | chCarrier (chmask period pmode phase : Nat)
  | chZcto (chmask zcto : Nat)
  | chStatus (ch : Nat)
  | objSource (obj src dom bind prio : Nat)
  | objPosition (obj : Nat) (pos : Point) (gain : Int)
  | objBulkdelay (obj delay ldly : Nat)
  | ctxWrite (n : Nat) (entries : List CtxEntry)
  | shapeLoad (first n : Nat) (taps : List Int)
  | geometry (first n : Nat) (pts : List Point)
  | panLaw (law param : Nat)
  | sceneConfig (dom en p ring : Nat)
  | objBasic (obj : Nat)
  | portPreset (port preset role dom : Nat)
  | portFormat (port slots width offset fsw pol role dom : Nat)
  | portEnable (port en rxring txring : Nat)
  | portMask (port rx tx : Nat)
  | portSlip (port group win zcto : Nat)
  | portRoute (port : Nat) (src : List Nat)
  | pdmConfig (clk micmask : Nat) (gmask : List Nat)
  | protProfile (chmask profile : Nat)
  | protThermal (chmask : Nat) (c : ConstSet)
  | protTs (chmask : Nat) (t : TsSet)
  | protLimits (chmask vmax tmax xmax plong : Nat)
  | railBudget (budget : Nat)
  | diagRun (chmask test when_ : Nat)
  | diagTones (chmask when_ flo fhi : Nat) (level : Int) (dur : Nat)
  | pilot (chmask en freq : Nat) (level : Int)
  | acoustic (chmask micmask stim when_ : Nat) (level : Int)
  | quietWindows (n : Nat) (wins : List QWin)
  | measBind (ring : Nat)
  | ringSetup (ring : Nat) (desc : RingDesc)
  | ringDestroy (ring : Nat)
  | isoReserve (rd wr : Nat)
  | envSet (chmask vmax tmax xmax plong rail lock : Nat)
  | authChallenge
  | envUnlock (chmask sig : Nat)
  | ownerKey (key sig : Nat)
  | stage (target offset len src : Nat)
  | stageCommit (target : Nat)
  | activate (image now : Nat)
  | mordantClear (area sig : Nat)
  | mdtInfo
  | mdtExport (area first count ring : Nat)
  | mdtNote (code : Nat) (data : List Byte)
  | decPreset (mask preset : Nat)
  | decFir (mask bank ntaps : Nat) (taps : List Int)
  | decSwap (mask : Nat)
  | decDcblock (mask corner freeze : Nat)
  | dsync
  | policy (dies oc th : Nat)
  | ocLimits (chmask ilim ncons mtrips win tretry rlim : Nat)
  | thLimits (dies tfold : Nat)
  | dcLimits (chmask vdc tdc edgewin : Nat)
  | faultClear (chmask : Nat)
  | emgMuteCmd (set hard ramp : Nat)
  | faultCounters (chmask : Nat)
deriving DecidableEq, Repr

/-- Where a register access goes: BAR0, BAR2 (R44), or configuration space (R42, R43): its identification registers, Device
Control (R46), Device Control 2 (R62), MSI-X Message Control (R408), the power-management control, and AER's Uncorrectable
Error Status and Capabilities and Control registers (R63). -/
inductive Space where
  | bar0 | bar2 | ident | devControl | devControl2 | msixControl | pmControl | aerStatus | aerControl
deriving DecidableEq, Repr

/-- A register access's space and its byte offset there. -/
structure Loc where
  sp : Space
  off : Nat
deriving DecidableEq, Repr

/-- What an event brings of a quantity that the device itself holds or measures: nothing. The operand names the quantity and
marks that no value of it comes from outside. -/
inductive Own where
  | own
deriving DecidableEq, Repr

/-- How a DMA read ended (R60, R63): data, a UR or (`ca`) CA status, poison or (`ecrc`) an ECRC error, its completion
timeout, a translation that an ABORT or the stall timeout ended (R56), or a drop by the fence (R58). -/
inductive ReadRes where
  | data (bytes : List Byte)
  | cplError (ca : Bool)
  | poisoned (ecrc : Bool)
  | timeout
  | aborted
  | stallTimeout
  | fenced
  | tableFault (entries : List Nat)
deriving DecidableEq, Repr

/-- Which finished record COMPLETION_WRITE writes: a tag's, or the oldest record without a tag (R114, R115). -/
inductive CplSel where
  | tag (t : Nat)
  | tagless
deriving DecidableEq, Repr

/-- Who ends a zero-crossing wait or a ramp (R123): a channel, an object, a port slot's port. -/
inductive Target where
  | chan (n : Nat)
  | obj (o : Nat)
  | port (p slot : Nat)
deriving DecidableEq, Repr

/-- A command of the block: one constructor per row of spec/opcode_table.json. -/
inductive Instr where
  /-- GET_INFO (R136). -/
  | getInfo (h : Hdr)
  /-- GET_SUMMARY (R125). -/
  | getSummary (h : Hdr)
  /-- CANCEL (R138). -/
  | cancel (h : Hdr) (target : Nat)
  /-- TB_RATE (R40). -/
  | tbRate (h : Hdr) (dom rate drate lpf : Nat)
  /-- TB_ENABLE (R418). -/
  | tbEnable (h : Hdr) (dom en : Nat)
  /-- TB_TIMING (R40). -/
  | tbTiming (h : Hdr) (dom mask cable lpres hold : Nat)
  /-- TB_DPLL (R40). -/
  | tbDpll (h : Hdr) (dom bw : Nat)
  /-- TB_CLOCKMASTER (R29). -/
  | tbClockmaster (h : Hdr) (dom : Nat)
  /-- TB_PAIR (R31). -/
  | tbPair (h : Hdr) (doma domb en : Nat) (offset : Int)
  /-- MBX_CONFIG (R98). -/
  | mbxConfig (h : Hdr) (ch set cpl vec tmo upbuf : Nat)
  /-- RESTART (R136). -/
  | restart (h : Hdr) (mode : Nat)
  /-- POWER_STATE (R378). -/
  | powerState (h : Hdr) (state : Nat)
  /-- TW_CONFIG (R140). -/
  | twConfig (h : Hdr) (addr2 mmode mask stretch : Nat)
  /-- CH_ENABLE (R141). -/
  | chEnable (h : Hdr) (chmask en dom : Nat)
  /-- CH_VOLUME (R141). -/
  | chVolume (h : Hdr) (chmask : Nat) (vol : Int) (ramp : Nat)
  /-- CH_MUTE (R222). -/
  | chMute (h : Hdr) (chmask mute ramp : Nat)
  /-- CH_BRIDGE (R224). -/
  | chBridge (h : Hdr) (pairs : Nat)
  /-- CH_LOOP (R215). -/
  | chLoop (h : Hdr) (chmask : Nat) (coef : Coef)
  /-- CH_CARRIER (R141). -/
  | chCarrier (h : Hdr) (chmask period pmode phase : Nat)
  /-- CH_ZCTO (R141). -/
  | chZcto (h : Hdr) (chmask zcto : Nat)
  /-- CH_STATUS (R141). -/
  | chStatus (h : Hdr) (ch : Nat)
  /-- OBJ_SOURCE (R144). -/
  | objSource (h : Hdr) (obj src dom bind prio : Nat)
  /-- OBJ_POSITION (R176). -/
  | objPosition (h : Hdr) (obj : Nat) (pos : Point) (gain : Int)
  /-- OBJ_BULKDELAY (R166). -/
  | objBulkdelay (h : Hdr) (obj delay ldly : Nat)
  /-- CTX_WRITE (R145). -/
  | ctxWrite (h : Hdr) (n : Nat) (entries : List CtxEntry)
  /-- SHAPE_LOAD (R171). -/
  | shapeLoad (h : Hdr) (first n : Nat) (taps : List Int)
  /-- GEOMETRY (R176). -/
  | geometry (h : Hdr) (first n : Nat) (pts : List Point)
  /-- PAN_LAW (R177). -/
  | panLaw (h : Hdr) (law param : Nat)
  /-- SCENE_CONFIG (R189). -/
  | sceneConfig (h : Hdr) (dom en p ring : Nat)
  /-- OBJ_BASIC (R179). -/
  | objBasic (h : Hdr) (obj : Nat)
  /-- PORT_PRESET (R147). -/
  | portPreset (h : Hdr) (port preset role dom : Nat)
  /-- PORT_FORMAT (R302). -/
  | portFormat (h : Hdr) (port slots width offset fsw pol role dom : Nat)
  /-- PORT_ENABLE (R305). -/
  | portEnable (h : Hdr) (port en rxring txring : Nat)
  /-- PORT_MASK (R315). -/
  | portMask (h : Hdr) (port rx tx : Nat)
  /-- PORT_SLIP (R308). -/
  | portSlip (h : Hdr) (port group win zcto : Nat)
  /-- PORT_ROUTE (R148). -/
  | portRoute (h : Hdr) (port : Nat) (src : List Nat)
  /-- PDM_CONFIG (R320). -/
  | pdmConfig (h : Hdr) (clk micmask : Nat) (gmask : List Nat)
  /-- PROT_PROFILE (R245). -/
  | protProfile (h : Hdr) (chmask profile : Nat)
  /-- PROT_THERMAL (R247). -/
  | protThermal (h : Hdr) (chmask : Nat) (c : ConstSet)
  /-- PROT_TS (R251). -/
  | protTs (h : Hdr) (chmask : Nat) (t : TsSet)
  /-- PROT_LIMITS (R243). -/
  | protLimits (h : Hdr) (chmask vmax tmax xmax plong : Nat)
  /-- RAIL_BUDGET (R257). -/
  | railBudget (h : Hdr) (budget : Nat)
  /-- DIAG_RUN (R151). -/
  | diagRun (h : Hdr) (chmask test when_ : Nat)
  /-- DIAG_TONES (R150). -/
  | diagTones (h : Hdr) (chmask when_ flo fhi : Nat) (level : Int) (dur : Nat)
  /-- PILOT (R298). -/
  | pilot (h : Hdr) (chmask en freq : Nat) (level : Int)
  /-- ACOUSTIC (R300). -/
  | acoustic (h : Hdr) (chmask micmask stim when_ : Nat) (level : Int)
  /-- QUIET_WINDOWS (R296). -/
  | quietWindows (h : Hdr) (n : Nat) (wins : List QWin)
  /-- MEAS_BIND (R150). -/
  | measBind (h : Hdr) (ring : Nat)
  /-- RING_SETUP (R82). -/
  | ringSetup (h : Hdr) (ring : Nat) (desc : RingDesc)
  /-- RING_DESTROY (R83). -/
  | ringDestroy (h : Hdr) (ring : Nat)
  /-- ISO_RESERVE (R49). -/
  | isoReserve (h : Hdr) (rd wr : Nat)
  /-- ENV_SET (R154). -/
  | envSet (h : Hdr) (chmask vmax tmax xmax plong rail lock : Nat)
  /-- AUTH_CHALLENGE (R153). -/
  | authChallenge (h : Hdr)
  /-- ENV_UNLOCK (R155). -/
  | envUnlock (h : Hdr) (chmask sig : Nat)
  /-- OWNER_KEY (R153). -/
  | ownerKey (h : Hdr) (key sig : Nat)
  /-- STAGE (R155). -/
  | stage (h : Hdr) (target offset len src : Nat)
  /-- STAGE_COMMIT (R153). -/
  | stageCommit (h : Hdr) (target : Nat)
  /-- ACTIVATE (R347). -/
  | activate (h : Hdr) (image now : Nat)
  /-- MORDANT_CLEAR (R355). -/
  | mordantClear (h : Hdr) (area sig : Nat)
  /-- MDT_INFO (R156). -/
  | mdtInfo (h : Hdr)
  /-- MDT_EXPORT (R356). -/
  | mdtExport (h : Hdr) (area first count ring : Nat)
  /-- MDT_NOTE (R156). -/
  | mdtNote (h : Hdr) (code : Nat) (data : List Byte)
  /-- DEC_PRESET (R232). -/
  | decPreset (h : Hdr) (mask preset : Nat)
  /-- DEC_FIR (R233). -/
  | decFir (h : Hdr) (mask bank ntaps : Nat) (taps : List Int)
  /-- DEC_SWAP (R233). -/
  | decSwap (h : Hdr) (mask : Nat)
  /-- DEC_DCBLOCK (R234). -/
  | decDcblock (h : Hdr) (mask corner freeze : Nat)
  /-- DSYNC (R39). -/
  | dsync (h : Hdr)
  /-- POLICY (R270). -/
  | policy (h : Hdr) (dies oc th : Nat)
  /-- OC_LIMITS (R264). -/
  | ocLimits (h : Hdr) (chmask ilim ncons mtrips win tretry rlim : Nat)
  /-- TH_LIMITS (R271). -/
  | thLimits (h : Hdr) (dies tfold : Nat)
  /-- DC_LIMITS (R274). -/
  | dcLimits (h : Hdr) (chmask vdc tdc edgewin : Nat)
  /-- FAULT_CLEAR (R275). -/
  | faultClear (h : Hdr) (chmask : Nat)
  /-- EMG_MUTE_CMD (R280). -/
  | emgMuteCmd (h : Hdr) (set hard ramp : Nat)
  /-- FAULT_COUNTERS (R158). -/
  | faultCounters (h : Hdr) (chmask : Nat)
  /-- COMMAND_ACCEPT (R116). -/
  | commandAccept (r : ReadRes)
  /-- STAMPED_EFFECT (R118). -/
  | stampedEffect (n : Nat)
  /-- COMPLETION_WRITE (R114). -/
  | completionWrite (sel : CplSel)
  /-- HELD_RECORD_WRITE (R81). -/
  | heldRecordWrite (k : Nat)
  /-- CMD_ENTRY_FETCH (R77). -/
  | cmdEntryFetch (k : Nat) (e1 e2 d1 d2 : ReadRes)
  /-- MBX_DB_WRITE (R90). -/
  | mbxDbWrite (p : Path) (ch : Nat) (whole : Bool) (v : Nat)
  /-- NOTICE_TAKE (R93). -/
  | noticeTake (ch : Nat)
  /-- MBX_ACK_READ (R89). -/
  | mbxAckRead (p : Path) (ch : Nat) (byte0 : Bool)
  /-- WDRAW (R95). -/
  | wdraw (p : Path) (ch : Nat)
  /-- DN_TMO_CLEAR (R94). -/
  | dnTmoClear (p : Path) (ch : Nat)
  /-- MAILBOX_TIMEOUT (R94). -/
  | mailboxTimeout (ch : Nat) (side : Bool)
  /-- UPSTREAM_POST (R96). -/
  | upstreamPost (ch : Nat)
  /-- MBX_UPACK (R97). -/
  | mbxUpack (p : Path) (ch tag code : Nat)
  /-- UPSTREAM_TIMEOUT (R97). -/
  | upstreamTimeout (ch : Nat)
  /-- UPSTREAM_REPOST (R161). -/
  | upstreamRepost (ch : Nat)
  /-- LOCK_ACQUIRE_READ (R105). -/
  | lockAcquireRead (m : Master) (n : Nat)
  /-- LOCK_RELEASE (R105). -/
  | lockRelease (m : Master) (n v : Nat)
  /-- LOCK_FORCE (R108). -/
  | lockForce (m : Master) (n nn : Nat)
  /-- DOORBELL (R72). -/
  | doorbell (fn k idx : Nat) (half : Bool)
  /-- DRAIN_COMPLETE (R83). -/
  | drainComplete (k : Nat) (timeouts : Own)
  /-- RESUME (R55). -/
  | resume (fn st : Nat) (entries : List Nat)
  /-- ABORT (R56). -/
  | abort (fn st : Nat)
  /-- INVALIDATE_DOMAIN (R52). -/
  | invalidateDomain (fn seq : Nat)
  /-- INVALIDATE_PAGE (R52). -/
  | invalidatePage (fn seq iova : Nat)
  /-- INVALIDATE_REGION (R52). -/
  | invalidateRegion (fn seq iova : Nat)
  /-- INVALIDATE_INTERNAL (R52). -/
  | invalidateInternal (fn seq : Nat)
  /-- INVALIDATION_DONE (R52). -/
  | invalidationDone (fn : Nat)
  /-- TRN_ROOT_WRITE (R45). -/
  | trnRootWrite (fn : Nat) (internal : Bool) (part v : Nat)
  /-- FENCE_LIFT (R58). -/
  | fenceLift (fn : Nat) (internal : Bool)
  /-- TRANSLATION_FAULT (R53). -/
  | translationFault (st iova : Nat) (write : Bool) (len : Nat) (entries : List Nat)
  /-- STALL_TIMEOUT (R55). -/
  | stallTimeout (st : Nat)
  /-- READ_COMPLETION (R60). -/
  | readCompletion (st iova len : Nat) (place : Own) (r : ReadRes)
  /-- COMPLETION_TIMEOUT (R62). -/
  | completionTimeout (st iova len : Nat)
  /-- SRAM_UE (R64). -/
  | sramUe (store index word iova : Nat)
  /-- SRAM_SINGLE_ERROR (R10). -/
  | sramSingleError (store : Nat)
  /-- FUNCTION_LEVEL_RESET (R65). -/
  | functionLevelReset (fn : Nat)
  /-- LINK_TRAINED (R49). -/
  | linkTrained (speed width : Nat)
  /-- LINK_DOWN (R66). -/
  | linkDown (cause : Nat)
  /-- REGISTER_WRITE (R6). -/
  | registerWrite (p : Path) (a : Loc) (n v : Nat) (bad : Option Bool)
  /-- CLEAR_ON_READ (R6). -/
  | clearOnRead (p : Path) (a : Loc) (n : Nat)
  /-- SYS_TIME_LATCH_READ (R404). -/
  | sysTimeLatchRead (p : Path) (k : Nat)
  /-- INTERRUPT_CAUSE_WRITE (R408). -/
  | interruptCauseWrite (fn off v : Nat)
  /-- EMG_MUTE_WRITE (R278). -/
  | emgMuteWrite (p : Path) (v : Nat)
  /-- PIN_HELD_CLEAR (R277). -/
  | pinHeldClear (p : Path)
  /-- VERM_IN_ASSERT (R277). -/
  | vermInAssert
  /-- VERM_IN_RELEASE (R277). -/
  | vermInRelease
  /-- MORDANT_WINDOW_LOAD (R357). -/
  | mordantWindowLoad (p : Path) (from_ : Nat)
  /-- MORDANT_WINDOW_LOADED (R357). -/
  | mordantWindowLoaded (p : Path)
  /-- FREEZE_ARM (R358). -/
  | freezeArm
  /-- FREEZE_KEY_TRIGGER (R358). -/
  | freezeKeyTrigger
  /-- FREEZE_DISARM (R363). -/
  | freezeDisarm (key : Nat)
  /-- FREEZE_ARM_TIMEOUT (R358). -/
  | freezeArmTimeout
  /-- FREEZE_N_FALL (R358). -/
  | freezeNFall (highUs : Nat)
  /-- SEPIA_FREEZE (R359). -/
  | sepiaFreeze
  /-- SEPIA_ADDR (R363). -/
  | sepiaAddr (off : Nat)
  /-- SEPIA_READ (R363). -/
  | sepiaRead (n : Nat)
  /-- SEPIA_THAW (R364). -/
  | sepiaThaw
  /-- TAP_TEST_LOGIC_RESET (R107). -/
  | tapTestLogicReset
  /-- LINE_WORD (R24). -/
  | lineWord (n w : Nat) (framing : Bool) (ns : Nat)
  /-- LINE_WORD_TIMEOUT (R25). -/
  | lineWordTimeout (n : Nat)
  /-- ACQUIRE_TIMER_EXPIRY (R25). -/
  | acquireTimerExpiry (n : Nat)
  /-- HOLDOVER_LIMIT_EXPIRY (R25). -/
  | holdoverLimitExpiry (n : Nat)
  /-- FAILOVER_RETURN (R32). -/
  | failoverReturn
  /-- PAIR_MISMATCH_REPORT (R32). -/
  | pairMismatchReport
  /-- DSYNC_N_EDGE (R39). -/
  | dsyncNEdge (qualified : Bool)
  /-- PERST_N_ASSERT (R370). -/
  | perstNAssert (long : Bool)
  /-- PERST_N_RELEASE (R373). -/
  | perstNRelease
  /-- POWER_ON_RESET (R369). -/
  | powerOnReset (pins : Nat)
  /-- LOGIC_RAIL_FAULT (R369). -/
  | logicRailFault
  /-- VDD_3V3_LOW (R354). -/
  | vdd3v3Low
  /-- POWER_FAIL_TIMEOUT (R354). -/
  | powerFailTimeout
  /-- VDD_3V3_RECOVER (R354). -/
  | vdd3v3Recover
  /-- REF_CLOCK_LOSS (R377). -/
  | refClockLoss
  /-- REF_CLOCK_RESTORE (R377). -/
  | refClockRestore
  /-- RENDER_BLOCK (R184). -/
  | renderBlock (doms : List Nat) (stalls : Nat) (temps : List (Nat × Int)) (sense : Own) (mics : List (Nat × List Bool))
  /-- BUDGET_SHORT_REPORT (R186). -/
  | budgetShortReport
  /-- LOOP_UPDATE (R212). -/
  | loopUpdate (n : Nat) (v i : List Bool) (pvdd ov : Nat)
  /-- EDGE_STAMP (R218). -/
  | edgeStamp (n : Nat) (b : Bool) (kind : Nat) (mismatch : Int) (cut : Bool)
  /-- SENSE_OVERLOAD (R210). -/
  | senseOverload (n : Nat) (current unstable : Bool)
  /-- UPSTREAM_FRAME_CORRUPT (R12). -/
  | upstreamFrameCorrupt (k : Nat)
  /-- CYCLE_TRIP (R264). -/
  | cycleTrip (n : Nat) (b high : Bool) (coarse index : Own) (cyc : Nat)
  /-- OC_SHUTDOWN (R265). -/
  | ocShutdown (n : Nat)
  /-- SHARE_FAULT (R224). -/
  | shareFault (p : Nat)
  /-- DC_FAULT (R274). -/
  | dcFault (n : Nat)
  /-- RETRY_TIMER (R268). -/
  | retryTimer (n : Nat)
  /-- PROBE_DONE (R267). -/
  | probeDone (n mohm : Nat)
  /-- RETRIES_RESET_TIMER (R268). -/
  | retriesResetTimer (n : Nat)
  /-- THERMAL_SHUTDOWN (R272). -/
  | thermalShutdown (p : Nat) (t : Int)
  /-- THERMAL_RECOVER (R272). -/
  | thermalRecover (k : Nat) (t0 t1 t2 t3 : Int)
  /-- SENSOR_FAULT (R272). -/
  | sensorFault (p : Nat) (silent : Bool) (t : Int)
  /-- SENSOR_RECOVER (R272). -/
  | sensorRecover (p : Nat) (t : Int)
  /-- PVDD_FAULT (R273). -/
  | pvddFault (k mv : Nat)
  /-- PVDD_RECOVER (R273). -/
  | pvddRecover (k mv : Nat)
  /-- ISO_LINK (R273). -/
  | isoLink (k lost : Nat)
  /-- ISO_LINK_RESTORE (R273). -/
  | isoLinkRestore (k : Nat)
  /-- SOFT_START_DONE (R221). -/
  | softStartDone (n : Nat)
  /-- IDENTIFICATION_DONE (R216). -/
  | identificationDone (n f0 q : Nat)
  /-- SOFT_STOP_DONE (R221). -/
  | softStopDone (n : Nat)
  /-- ZERO_CROSSING (R123). -/
  | zeroCrossing (t : Target)
  /-- ZERO_CROSSING_TIMEOUT (R123). -/
  | zeroCrossingTimeout (t : Target)
  /-- DISABLE_RAMP_DONE (R123). -/
  | disableRampDone (t : Target)
  /-- ESTIMATION_WINDOW_END (R248). -/
  | estimationWindowEnd (n : Nat) (vi mot i2 : Own)
  /-- PILOT_WINDOW_END (R298). -/
  | pilotWindowEnd (n : Nat) (meas : Own)
  /-- QUIET_WINDOW_OPEN (R297). -/
  | quietWindowOpen (k : Nat)
  /-- QUIET_WINDOW_CLOSE (R297). -/
  | quietWindowClose (k : Nat)
  /-- DISTURBANCE_WAIT_EXPIRY (R289). -/
  | disturbanceWaitExpiry (n : Nat)
  /-- DIAG_TEST_END (R292). -/
  | diagTestEnd (n : Nat) (meas : Own)
  /-- ACOUSTIC_OUTPUT_DONE (R300). -/
  | acousticOutputDone (n : Nat) (mics : List MicMeas)
  /-- TDM_FRAME (R306). -/
  | tdmFrame (p periods : Nat) (din : List Bool) (ns : Nat)
  /-- BCLK_TIMEOUT (R305). -/
  | bclkTimeout (p : Nat)
  /-- FSYNC_TIMEOUT (R305). -/
  | fsyncTimeout (p : Nat)
  /-- RATE_INTERVAL_END (R305). -/
  | rateIntervalEnd (p : Nat) (rate : Own)
  /-- NONAUDIO_RELEASE (R318). -/
  | nonaudioRelease (p pr : Nat)
  /-- MIC_STUCK_DETECT (R17). -/
  | micStuckDetect (m : Nat)
  /-- MIC_FAULT_CLEAR (R321). -/
  | micFaultClear (m : Nat)
  /-- MIC_SETTLE_END (R321). -/
  | micSettleEnd (m : Nat)
  /-- SCENE_FRAME_PARSE (R193). -/
  | sceneFrameParse (r : Nat) (frame : Own)
  /-- SCENE_FRAME_MISSED (R199). -/
  | sceneFrameMissed (r : Nat)
  /-- SCENE_BANK_SWITCH (R200). -/
  | sceneBankSwitch (r : Nat)
  /-- WATCHDOG_EXPIRY (R342). -/
  | watchdogExpiry
  /-- PROCESSOR_RESTART (R342). -/
  | processorRestart
  /-- PROCESSOR_READY (R344). -/
  | processorReady (good : Bool)
  /-- FLYWHEEL_LIMIT (R343). -/
  | flywheelLimit
  /-- IMAGE_PROVEN (R347). -/
  | imageProven
  /-- MORDANT_WRITE (R353). -/
  | mordantWrite
  /-- SUPPRESSION_SECOND_END (R353). -/
  | suppressionSecondEnd (kind subject : Nat)
  /-- MORDANT_CLEAR_DONE (R355). -/
  | mordantClearDone
  /-- MIRROR_COPY (R410). -/
  | mirrorCopy
  /-- TW_ADDRESS (R326). -/
  | twAddress (a : Nat) (read : Bool)
  /-- TW_WRITE_BYTE (R329). -/
  | twWriteByte (b : Nat)
  /-- TW_READ_BYTE (R330). -/
  | twReadByte
  /-- TW_STOP (R329). -/
  | twStop
  /-- STRETCH_TO (R334). -/
  | stretchTo
  /-- SCL_STUCK (R335). -/
  | sclStuck
  /-- SDA_STUCK (R335). -/
  | sdaStuck (driving : Bool)
  /-- TW_SUSPEND (R336). -/
  | twSuspend
  /-- SDA_HELD (R336). -/
  | sdaHeld
  /-- TW_SLEEP_TIMEOUT (R337). -/
  | twSleepTimeout
  /-- POWER_STATE_TRANSITION_END (R379). -/
  | powerStateTransitionEnd
  /-- FLASH_WRITE_DONE (R155). -/
  | flashWriteDone (tag : Nat) (hdr : ImgHdr) (good : Bool)
  /-- EMG_CFG_WRITE (R278). -/
  | emgCfgWrite (p : Path) (v : Nat)
  /-- MSIX_UNMASK (R408). -/
  | msixUnmask (fn : Nat) (vec : Option Nat)
  /-- ASPM_L1_ENTRY (R47). -/
  | aspmL1Entry
  /-- TW_WAKE_READY (R337). -/
  | twWakeReady
deriving DecidableEq, Repr


end Sys2Proof
end

