-- ==== Sys2Proof/Decode.lean ====
section
/-! DEFINITION. Words of spec/opcode_table.json. No row of the table has bits, so no word spells a command (log entry 2); the
bytes of a command descriptor are parsed in Machine/Operands.lean. -/

namespace Sys2Proof

/-- The command that a word of the table's bits spells: none, since the table gives no row any bits. -/
def decodeTableWord (_nbits _w : Nat) : Option Instr := none

end Sys2Proof
end

