-- ==== Sys2Proof/Config.lean ====
section
/-! DEFINITION. What one device or one implementation fixes, and the free values: constants without a body, so that
no proof can see what they are (log entries 5, 7, 8). -/

namespace Sys2Proof.Config

/-- A fresh free value for the `n`-th draw: a natural number (log entry 5). The reader narrows it to the field. -/
opaque freeNat : Nat → Nat

/-- A fresh free value for the `n`-th draw: a signed number. -/
opaque freeInt : Nat → Int

/-- A fresh free value for the `n`-th draw: an exact fraction. -/
opaque freeRat : Nat → Rat

/-- A fresh free value for the `n`-th draw: a truth value. -/
opaque freeBool : Nat → Bool

/-- Byte `k` of the 16-byte device serial (R137, R406). -/
opaque serial : Nat → Byte

/-- VERSION of the boot loader's own header (R137, R346). -/
opaque bootVersion : Nat

/-- Time in µs that a step of a boot takes: boot by its start, step; at most the manual's maximum where it is used
(R345, R373, R374; log entry 74). -/
opaque bootTime : Nat → Nat → Nat

/-- The calibration date of the identity block (R137). -/
opaque calDate : Nat

/-- Whether a signature over opcode, payload with SIG zero, nonce and serial verifies with a key (R155): key, opcode,
payload bytes, nonce, signature (log entry 7). -/
opaque sigOk : Nat → Nat → List Nat → Nat → Nat → Bool

/-- Whether the speaker profile library of a version holds a profile ID (R149). -/
opaque hasProfile : Nat → Nat → Bool

/-- Weight of a sample at a distance, in loop updates, from the interpolator's centre, at the single or the double rate
(R211). The manual gives the interpolator's figures and no coefficients; its kernel depends on the distance alone, which is
what linear phase says (log entry 5). -/
opaque upKernel : Bool → Rat → Rat

/-- The identification chirp at a loop update, in V (R216): 30 kHz to 160 kHz, held to its 1.0 V peak where it is used. -/
opaque chirp : Nat → Rat

/-- The current-sharing term of a bridged pair in V, from the two sensed currents in A (R224). -/
opaque shareTerm : Rat → Rat → Rat

/-- Basic loop tuning that Ramcen computes from f0 in Hz, Q in 1/100, nominal impedance in mΩ and carrier period (R216);
the manual gives its aim and no formula. -/
opaque basicTuning : Nat → Nat → Nat → Nat → Coef

/-- The fixed identification tuning (R216). -/
opaque identTuning : Coef

/-- One sample of the discretised excursion model (R251): parameters, coil resistance in Ω, sample rate, state
(displacement, velocity, current) and drive in V. The manual fixes the equations and not how they are discretised. -/
opaque excStep : TsSet → Rat → Nat → Rat × Rat × Rat → Rat → Rat × Rat × Rat

/-- Coefficients b0, b1, b2, a1, a2 of the second-order Butterworth high-pass of a corner in Hz at a sample rate (R253). -/
opaque hpCoef : Rat → Nat → Nat → Rat

/-- Coefficients b0, b1, b2, a1, a2 of stage `k` of a fixed low-pass of a corner in Hz at a sample rate, by index (R248,
R274): a Butterworth of second order has one stage, of fourth order two. -/
opaque lpCoef : Rat → Nat → Nat → Nat → Rat

/-- One sample of the excursion model driven by the measured current in A: parameters, sample rate, state (displacement,
velocity, current) (R248). Log entry 5. -/
opaque excCurrent : TsSet → Nat → Rat × Rat × Rat → Rat → Rat × Rat × Rat

/-- Coefficient of a minimum-phase half-band: stage 0–4 for HB1m–HB5m, index (R228). -/
opaque hbMin : Nat → Nat → Rat

/-- Coefficient of a linear-phase half-band, counted from its nearer end: stage 1–9, index (R228). -/
opaque hbLin : Nat → Nat → Rat

/-- Standard coefficient of a tap FIR: microphone chain or not, tap, index (R230); linear-phase ones are counted from the
nearer end. -/
opaque tapStd : Bool → Nat → Nat → Rat

/-- Modulator trim of a sense chain: gain and offset as a share of full scale (R210, R240). -/
opaque trim : Nat → Rat × Rat

/-- Weight `k` of the Hann window of `n` taps before its weights are scaled to the sum 1 (R252). -/
opaque hann : Nat → Nat → Rat

/-- Interpolator coefficient: taps, phase 1–63, index (R170). Phase 0 is a unit impulse. -/
opaque interp : Nat → Nat → Nat → Rat

/-- Constants, excursion parameters and limits of a profile of a library version: VMAX, TMAX, XMAX, PLONG, nominal
impedance, VFS (R245). -/
opaque profileConst : Nat → Nat → ConstSet
/-- Excursion parameters of a profile. -/
opaque profileTs : Nat → Nat → TsSet
/-- Limits, impedance and VFS of a profile, field 0–5. -/
opaque profileField : Nat → Nat → Nat → Nat

/-- Phase in periods at which a stimulus of a kind starts: 0 pilot, 1 lower tone, 2 upper tone, 3 sweep (R289, R298,
R300). -/
opaque phase : Nat → Rat

/-- Sample `k` of the maximum-length sequence of order 15: whether it is +1 (R300). The manual names no polynomial. -/
opaque mls : Nat → Bool

/-- A part of the impedance that a window with no current gives, from its voltage part: the manual states none (log entry
71). -/
opaque noCurrent : Rat → Rat

/-- Byte of the `n`-th freeze image at an offset of which the manual gives no layout (R361, R362). -/
opaque fzByte : Nat → Nat → Byte

end Sys2Proof.Config
end

