-- ==== Sys2Proof/Machine/State.lean ====
section
/-! DEFINITION. The state of the AB4832 as plain data: every register, queue, table and mode that the
specification gives the device, its value after reset, and the reasons a step can stop. -/

namespace Sys2Proof.Machine

/-- The states of a timebase domain (R25). -/
inductive DomSt where
  | disabled | acquire | locked | holdover | freerun
deriving DecidableEq, Repr

/-- The states of a command tag (R114). -/
inductive TagSt where
  | free | active | done | held | written
deriving DecidableEq, Repr

/-- How far an ACTIVE command is: waiting for earlier ones (ORDERED, R118), scheduled for its effective sample, running over many blocks (When L, R133), ending its disable (R123), or committed with its completion to follow (R121). -/
inductive TagPh where
  | waiting | sched | long | ending | applied
deriving DecidableEq, Repr

/-- The states of a ring (R68, R79). -/
inductive RingSt where
  | disabled | running | stalled | error | fenced | draining
deriving DecidableEq, Repr

/-- The states of a notice in a downstream FIFO (R92); an acknowledged notice stands in its port's acknowledge queue. -/
inductive NoticeSt where
  | queued | taken
deriving DecidableEq, Repr

/-- Where a two-wire transfer stands (R328): none, pointer high byte next, pointer low byte next, data bytes, read bytes, or ignored until the next START. -/
inductive TwX where
  | idle | ptrHi | ptrLo | write | read | ignore
deriving DecidableEq, Repr

/-- The output stage of a channel (R14): switching, high impedance, latched off. -/
inductive Outst where
  | run | hiz | off
deriving DecidableEq, Repr

/-- An event record (R124). -/
structure Evt where
  /-- event code (R124). -/
  code : Nat
  /-- what the event is about (R124). -/
  subject : Nat
  /-- severity 0-3 (R124). -/
  sev : Nat
  /-- OPEN, HELD, CLOSE (R124). -/
  flags : Nat
  /-- the function's event count (R124). -/
  seq : Nat
  /-- line-time of detection (R124). -/
  lt : Nat
  /-- code-specific (R124). -/
  data : Nat
  /-- controller epoch at detection (R124). -/
  epoch : Nat
deriving DecidableEq, Repr

/-- Evt after reset. -/
def Evt.reset : Evt :=
  { code := 0
    subject := 0
    sev := 0
    flags := 0
    seq := 0
    lt := 0
    data := 0
    epoch := 0 }

/-- A Mordant record (R350); the CRC is computed when the record is read. -/
structure MRec where
  /-- ring sequence number (R350). -/
  seq : Nat
  /-- event code, or kind of R351 (R350). -/
  kind : Nat
  /-- as the event's subject (R350). -/
  subject : Nat
  /-- clock-master line-time of detection (R350). -/
  lt : Nat
  /-- µs since power-on reset (R350). -/
  uptime : Nat
  /-- severity; bit 7 in a first-fault copy (R350). -/
  sev : Nat
  /-- master ID of the requester, 0 for hardware (R350). -/
  origin : Nat
  /-- DATA bytes, those not listed zero (R350). -/
  data : List Nat
  /-- controller epoch (R350). -/
  epoch : Nat
deriving DecidableEq, Repr

/-- MRec after reset. -/
def MRec.reset : MRec :=
  { seq := 0
    kind := 0
    subject := 0
    lt := 0
    uptime := 0
    sev := 0
    origin := 0
    data := []
    epoch := 0 }

/-- Power, clocks, processor and flywheel (R16, R342-R349, R366-R380). -/
structure Sys where
  /-- SYS_UPTIME: µs since power-on reset (R404). -/
  uptime : Nat
  /-- the internal power-on reset is held (R369). -/
  por : Bool
  /-- PERST_N is asserted (R370). -/
  perst : Bool
  /-- PERST_N was released while the power-on reset was held (R372). -/
  perstWait : Bool
  /-- uptime at which VDD_3V3 fell below 3.0 V (R354). -/
  v3Low : Option Nat
  /-- MRAM writes are inhibited (R354). -/
  mramOff : Bool
  /-- controller epoch (R120). -/
  epoch : Nat
  /-- SYS_BOOT.PHASE (R374). -/
  phase : Nat
  /-- SYS_BOOT.IMAGE (R374). -/
  image : Nat
  /-- SYS_BOOT.READY, the complement of RCV_DOWN (R374). -/
  ready : Bool
  /-- recovery mode (R349). -/
  recovery : Bool
  /-- the boot loader's signature failed (R349). -/
  bootFail : Bool
  /-- ID_FW: running Ramcen version (R403). -/
  fw : Nat
  /-- SYS_BOOT.PSTATE (R374). -/
  pstate : Nat
  /-- power state set, in which a transition under way ends (R379). -/
  pGoal : Nat
  /-- STANDBY or SLEEP holds every channel (R378). -/
  pHold : Bool
  /-- uptime at which the 25 MHz reference was lost (R377). -/
  refLostAt : Option Nat
  /-- tag of the POWER_STATE command a transition belongs to (R379). -/
  pTag : Option Nat
  /-- POWER_STATE commands accepted during a transition: state and tag (R380). -/
  pQueue : List (Nat × Nat)
  /-- SYS_BOOT.REF_OK (R374). -/
  refOk : Bool
  /-- SYS_BOOT.SPLL_LOCK (R374). -/
  spll : Bool
  /-- SYS_BOOT.APLL_LOCK (R374). -/
  apll : Bool
  /-- every channel carries the hold of a lost 25 MHz reference (R377). -/
  refHold : Bool
  /-- uptime at which the flywheel timer started (R343). -/
  flyStart : Option Nat
  /-- mask of the channels a flywheel mute ramped (R343). -/
  flyMute : Nat
  /-- the flywheel timer of this outage has reached its limit (R343). -/
  flyDone : Bool
  /-- uptime at which the restore ramp of a flywheel mute ends (R341). -/
  flyClose : Option Nat
  /-- cause of the restart under way (R342). -/
  cause : Nat
  /-- the boot under way follows a restart, not a reset (R344). -/
  wasRestart : Bool
  /-- uptime at which the boot under way began (R374). -/
  bootAt : Nat
  /-- notices discarded at the restart under way, for READY (R161). -/
  discarded : Nat
  /-- failed and running version, while an IMAGE_FALLBACK upstream message is still to be posted (R347). -/
  fallback : Option (Nat × Nat)
  /-- uptime at which the last reset was released (R358). -/
  relAt : Nat
  /-- word address of a processor SRAM error whose record follows the restart (R64). -/
  ueWord : Option Nat
  /-- uptime at which the running image became ready (R347). -/
  provenAt : Option Nat
deriving DecidableEq, Repr

/-- Sys after reset. -/
def Sys.reset : Sys :=
  { uptime := 0
    por := false
    perst := false
    perstWait := false
    v3Low := none
    mramOff := false
    epoch := 1
    phase := 0
    image := 0
    ready := false
    recovery := false
    bootFail := false
    fw := 0
    pstate := 0
    pGoal := 0
    pHold := false
    refLostAt := none
    pTag := none
    pQueue := []
    refOk := true
    spll := false
    apll := false
    refHold := false
    flyStart := none
    flyMute := 0
    flyDone := false
    flyClose := none
    cause := 0
    wasRestart := false
    bootAt := 0
    discarded := 0
    fallback := none
    relAt := 0
    ueWord := none
    provenAt := none }

/-- A line word as decoded (R22), with the time of its line start. -/
structure Word where
  /-- frame count, assembled (R23). -/
  frame : Nat
  /-- line number (R22). -/
  line : Nat
  /-- lines per frame (R22). -/
  lpf : Nat
  /-- time of the line start in ns of uptime, cable delay subtracted (R21). -/
  ns : Int
deriving DecidableEq, Repr

/-- Word after reset. -/
def Word.reset : Word :=
  { frame := 0
    line := 0
    lpf := 0
    ns := 0 }

/-- A timebase domain TD0-TD3 and its link. -/
structure Dom where
  /-- state (R25). -/
  st : DomSt
  /-- frame-rate code (R40). -/
  rate : Nat
  /-- nominal LPF (R40). -/
  nomLpf : Nat
  /-- double rate (R40). -/
  dbl : Bool
  /-- L_pres in µs (R36). -/
  lpres : Nat
  /-- L_pres to come into force at the next block boundary (R37). -/
  lpresNext : Option Nat
  /-- cable delay of link LTLn in ns (R38). -/
  cable : Nat
  /-- holdover limit in ms (R40). -/
  holdLim : Nat
  /-- DPLL bandwidth in 0.1 Hz (R40). -/
  bw : Nat
  /-- bandwidth that comes into force at the next line start (R40). -/
  bwNext : Option Nat
  /-- level of the domain's timebase (R122). -/
  expert : Bool
  /-- basic inputs ignored at EXPERT (R122). -/
  basicIgn : Nat
  /-- LT has been set since the domain was enabled (R25). -/
  ltSet : Bool
  /-- established lines per frame (R24). -/
  lpf : Nat
  /-- LPF has been established (R24). -/
  lpfEst : Bool
  /-- line-time within the frame cycle, in 1/65,536 line (R27). -/
  pos : Nat
  /-- part of a 1/65,536 line by which the line-time is ahead of pos (R27). -/
  sub : Rat
  /-- cycle count W (R28). -/
  w : Nat
  /-- SC at which a disabled domain stopped (R418). -/
  scHold : Nat
  /-- estimate of the generator's frequency, ppm from nominal (R26). -/
  freq : Rat
  /-- phase error in ns still to be removed at up to 100 ppm (R26). -/
  slew : Rat
  /-- CRC_ERR (R24). -/
  crcErr : Nat
  /-- FORMAT_ERR (R24). -/
  fmtErr : Nat
  /-- RATE_ERR (R24). -/
  rateErr : Nat
  /-- SEQ_ERR (R24). -/
  seqErr : Nat
  /-- PAIR_MISMATCH (R32). -/
  pairMis : Nat
  /-- GEN_HOLD of the last valid word (R22). -/
  genHold : Bool
  /-- frame count [31:16] from the last FHI word (R23). -/
  fhi : Nat
  /-- consecutive valid words consistent with one another but not in sequence (R25). -/
  run : Nat
  /-- one of them carried FHI (R25). -/
  runFhi : Bool
  /-- the last valid word (R24). -/
  last : Word
  /-- line spacing in ns that the last consistent words implied (R25). -/
  gap : Rat
  /-- uptime at which the acquire timer started (R25). -/
  acqAt : Option Nat
  /-- uptime at which the 100 ms lock qualification started (R25). -/
  lockAt : Option Nat
  /-- uptime of the entry into HOLDOVER (R25). -/
  holdAt : Option Nat
  /-- uptime of the last valid in-sequence word (R25). -/
  lastSeqAt : Nat
  /-- uptime of the last valid word (R25). -/
  lastValidAt : Nat
  /-- FAILOVER flag (R32). -/
  failover : Bool
  /-- uptime since which LTL0 delivers valid in-sequence words again (R32). -/
  backAt : Option Nat
  /-- uptime of the last of them (R32). -/
  backLast : Nat
  /-- uptime at which the ramp to mute of a re-anchor started (R26). -/
  anchorAt : Option Nat
  /-- last of the consistent words that the re-anchor sets LT from (R26). -/
  anchorW : Word
  /-- LTL1 mismatches: it differs from TD0 plus O (R32). -/
  mis : Bool
  /-- uptime of the last PAIR_MISMATCH event (R32). -/
  misAt : Option Nat
  /-- last difference of LTL1 from TD0 plus O, in ns (R32). -/
  misNs : Int
  /-- LTL1's last word is in sequence with TD0's prediction plus O within 20 µs (R32). -/
  pairOk : Bool
  /-- muted for lying beyond 500 ppm of the clock master (R29). -/
  rangeMute : Bool
  /-- muted by a re-anchor (R26). -/
  reMute : Bool
  /-- the domain's outputs have started (R25). -/
  outs : Bool
  /-- blocks of an L_pres change's silence still to run (R37). -/
  lpMute : Nat
  /-- SC of the first block not yet rendered (R28). -/
  nextBlk : Nat
  /-- tag of a TB_ENABLE disable whose channel ramps have not ended (R418). -/
  dis : Option Nat
deriving DecidableEq, Repr

/-- Dom after reset. -/
def Dom.reset : Dom :=
  { st := .disabled
    rate := 2
    nomLpf := 1125
    dbl := false
    lpres := 5000
    lpresNext := none
    cable := 0
    holdLim := 2000
    bw := 20
    bwNext := none
    expert := false
    basicIgn := 0
    ltSet := false
    lpf := 1125
    lpfEst := false
    pos := 0
    sub := 0
    w := 0
    scHold := 0
    freq := 0
    slew := 0
    crcErr := 0
    fmtErr := 0
    rateErr := 0
    seqErr := 0
    pairMis := 0
    genHold := false
    fhi := 0
    run := 0
    runFhi := false
    last := Word.reset
    gap := 0
    acqAt := none
    lockAt := none
    holdAt := none
    lastSeqAt := 0
    lastValidAt := 0
    failover := false
    backAt := none
    backLast := 0
    anchorAt := none
    anchorW := Word.reset
    mis := false
    misAt := none
    misNs := 0
    pairOk := false
    rangeMute := false
    reMute := false
    outs := false
    lpMute := 0
    nextBlk := 0
    dis := none }

/-- Device-wide timebase parameters (R29, R31, R39). -/
structure Tb where
  /-- clock-master domain (R40). -/
  master : Nat
  /-- TD0 and TD1 are paired (R40). -/
  pair : Bool
  /-- pairing offset O in lines (R40). -/
  offset : Int
  /-- uptime of the last accepted DSYNC_N edge (R39). -/
  dsyncAt : Option Nat
  /-- DSYNC_N edges and pulses ignored (R39). -/
  dsyncIgn : Nat
  /-- PERST_N pulses below 1 µs ignored (R17). -/
  perstIgn : Nat
deriving DecidableEq, Repr

/-- Tb after reset. -/
def Tb.reset : Tb :=
  { master := 0
    pair := false
    offset := 0
    dsyncAt := none
    dsyncIgn := 0
    perstIgn := 0 }

/-- What a register path (PF0, PF1, two-wire) or a command sender holds for itself. -/
structure PathR where
  /-- SYS_ERR.PARTIAL (R405). -/
  ePartial : Nat
  /-- SYS_ERR.DB_IGNORED (R405). -/
  eDb : Nat
  /-- SYS_ERR.MBX_IGNORED (R405). -/
  eMbx : Nat
  /-- SYS_ERR.REG_IGNORED (R405). -/
  eReg : Nat
  /-- the latch over the six words of SYS_UPTIME, SYS_LT and SYS_SC: value while held unread (R404). -/
  latch : List (Option Nat)
  /-- MDT_WSEL.FROM (R357). -/
  wsel : Nat
  /-- MDT_WCTL.AREA (R357). -/
  warea : Nat
  /-- area of the load under way or last done (R357). -/
  wload : Nat
  /-- MDT_WSTAT.BUSY (R357). -/
  wbusy : Bool
  /-- MDT_WSTAT.VALID (R357). -/
  wvalid : Bool
  /-- MDT_WSTAT.OVERWRITTEN (R357). -/
  wover : Bool
  /-- MDT_WSTAT.COUNT (R357). -/
  wcount : Nat
  /-- records in the Mordant aperture, by place (R357). -/
  wrecs : Tab MRec
  /-- uptimes of this sender's MDT_NOTE records of the last second (R156). -/
  notes : List Nat
deriving DecidableEq, Repr

/-- PathR after reset. -/
def PathR.reset : PathR :=
  { ePartial := 0
    eDb := 0
    eMbx := 0
    eReg := 0
    latch := [none, none, none, none, none, none]
    wsel := 0
    warea := 0
    wload := 0
    wbusy := false
    wvalid := false
    wover := false
    wcount := 0
    wrecs := []
    notes := [] }

/-- An invalidation that is pending (R58). -/
structure Inv where
  /-- SCOPE (R58). -/
  scope : Nat
  /-- SEQ (R58). -/
  seq : Nat
  /-- IOVA [37:12] (R58). -/
  page : Nat
  /-- reads issued before it: those it covers must have ended (R52). -/
  upto : Nat
deriving DecidableEq, Repr

/-- Inv after reset. -/
def Inv.reset : Inv :=
  { scope := 0
    seq := 0
    page := 0
    upto := 0 }

/-- A PCI Express function, PF0 or PF1: translation block, interrupt causes, MSI-X, event delivery. -/
structure Fn where
  /-- TRN_CTRL.EN (R58). -/
  trnEn : Bool
  /-- TRN_CTRL.FENCED (R58). -/
  fenced : Bool
  /-- TRN_CTRL.STALL_TO (R58). -/
  stallTo : Nat
  /-- TRN_FSTAT.FLT_LOST (R58). -/
  fltLost : Nat
  /-- TRN_ROOT.ROOT (R58). -/
  root : Nat
  /-- low word of TRN_ROOT written and held (R45). -/
  rootLow : Option Nat
  /-- invalidations pending (R58). -/
  invQ : List Inv
  /-- TRN_INV_DONE.SEQ (R58). -/
  invDone : Nat
  /-- TRN_LAST0-TRN_LAST3 (R58). -/
  last : List Nat
  /-- TRN_IROOT.ROOT (PF1) (R58). -/
  iroot : Nat
  /-- low word of TRN_IROOT written and held (PF1) (R45). -/
  irootLow : Option Nat
  /-- TRN_ICTRL.EN (PF1) (R58). -/
  ien : Bool
  /-- TRN_ICTRL.FENCED (PF1) (R58). -/
  ifenced : Bool
  /-- INT_CAUSE bits 0, 3, 4, 5 (R407). -/
  cause : Nat
  /-- INT_MASK (R407). -/
  mask : Nat
  /-- INT_MBX (R407). -/
  intMbx : Nat
  /-- INT_RING0-127, zero where not listed (R407). -/
  intRing : Tab Nat
  /-- words of the MSI-X table that were written; an unlisted vector control word is 1 (masked), other words 0 (R415). -/
  msix : Tab Nat
  /-- MSI-X pending bits (R415). -/
  pba : Nat
  /-- MSI-X Enable of the function (R408). -/
  msixEn : Bool
  /-- MSI-X Function Mask (R408). -/
  fmask : Bool
  /-- Completion Timeout Value of Device Control 2 (R62). -/
  cto : Nat
  /-- Enable Relaxed Ordering of Device Control (R46). -/
  ro : Bool
  /-- Enable No Snoop of Device Control (R46). -/
  ns : Bool
  /-- held events (R18). -/
  held : List Evt
  /-- EVT_LOST (R127). -/
  evtLost : Nat
  /-- SEQ of the next event (R124). -/
  evtSeq : Nat
  /-- SEQ of the next fault record (R57). -/
  fltSeq : Nat
  /-- AER Uncorrectable Error Status, by the bits of PCI Express (R63). -/
  aer : Nat
  /-- ECRC Generation Enable of AER (R42). -/
  ecrcGen : Bool
  /-- ECRC Check Enable of AER (R42). -/
  ecrcChk : Bool
  /-- Max_Payload_Size of Device Control: 0 for 128 bytes, 1 for 256 (R42). -/
  mps : Nat
  /-- Max_Read_Request_Size of Device Control, any value accepted (R42). -/
  mrrs : Nat
  /-- PowerState of the power-management capability: 0 D0, 3 D3hot (R42). -/
  dstate : Nat
deriving DecidableEq, Repr

/-- Fn after reset. -/
def Fn.reset : Fn :=
  { trnEn := false
    fenced := false
    stallTo := 1000
    fltLost := 0
    root := 0
    rootLow := none
    invQ := []
    invDone := 0
    last := [0, 0, 0, 0]
    iroot := 0
    irootLow := none
    ien := false
    ifenced := false
    cause := 0
    mask := 0
    intMbx := 0
    intRing := []
    msix := []
    pba := 0
    msixEn := false
    fmask := false
    cto := 0
    ro := true
    ns := true
    held := []
    evtLost := 0
    evtSeq := 0
    fltSeq := 0
    aer := 0
    ecrcGen := false
    ecrcChk := false
    mps := 0
    mrrs := 2
    dstate := 0 }

/-- A stalled stream (R53). -/
structure Stall where
  /-- stream ID (R54). -/
  stream : Nat
  /-- function that owns the stream (R53). -/
  fn : Nat
  /-- translation domain (R57). -/
  dom : Nat
  /-- faulting address (R57). -/
  iova : Nat
  /-- request length in bytes (R57). -/
  len : Nat
  /-- the access is a write (R57). -/
  write : Bool
  /-- uptime at which the stall began (R55). -/
  since : Nat
deriving DecidableEq, Repr

/-- Stall after reset. -/
def Stall.reset : Stall :=
  { stream := 0
    fn := 0
    dom := 0
    iova := 0
    len := 0
    write := false
    since := 0 }

/-- A cached final translation (R52). -/
structure TlbE where
  /-- translation domain (R52). -/
  dom : Nat
  /-- first IOVA covered (R52). -/
  base : Nat
  /-- 4 KiB, 64 KiB or 2 MiB in bytes (R52). -/
  size : Nat
  /-- the final table entry (R51). -/
  entry : Nat
  /-- its level (R57). -/
  level : Nat
deriving DecidableEq, Repr

/-- TlbE after reset. -/
def TlbE.reset : TlbE :=
  { dom := 0
    base := 0
    size := 0
    entry := 0
    level := 0 }

/-- A read of host memory under way (R60, R62). -/
structure Rd where
  /-- stream ID (R54). -/
  stream : Nat
  /-- its address (R60). -/
  iova : Nat
  /-- its length in bytes (R60). -/
  len : Nat
  /-- of a long-delay position, its first sample (R60). -/
  pos : Nat
  /-- uptime of its issue (R62). -/
  since : Nat
  /-- its place in the order of issue (R52). -/
  no : Nat
  /-- of a read that has ended behind an earlier one of its ring, the bytes not yet used (R73). -/
  got : List Nat
  /-- it has ended, but an earlier entry of its ring has not (R73). -/
  taken : Bool
deriving DecidableEq, Repr

/-- Rd after reset. -/
def Rd.reset : Rd :=
  { stream := 0
    iova := 0
    len := 0
    pos := 0
    since := 0
    no := 0
    got := []
    taken := false }

/-- Translation unit (R50-R58). -/
structure Trn where
  /-- translation cache, newest first (R52). -/
  tlb : List TlbE
  /-- walk cache: domain, IOVA prefix, entry (R52). -/
  walk : List (Nat × Nat × Nat)
  /-- stalled streams, oldest first (R53). -/
  stalls : List Stall
  /-- reads under way, oldest first (R42). -/
  reads : List Rd
  /-- reads issued so far (R52). -/
  readNo : Nat
  /-- stream and address of writes whose staged data a memory error has hit: they leave with EP set (R64). -/
  poison : List (Nat × Nat)
deriving DecidableEq, Repr

/-- Trn after reset. -/
def Trn.reset : Trn :=
  { tlb := []
    walk := []
    stalls := []
    reads := []
    readNo := 0
    poison := [] }

/-- The PCI Express link (R42-R49). -/
structure Link where
  /-- in L0 (R66). -/
  up : Bool
  /-- trained speed, 1 to 4 for 2.5 to 16 GT/s (R49). -/
  speed : Nat
  /-- trained width (R49). -/
  width : Nat
  /-- ISOCHRONOUS reservation for reads, MB/s (R49). -/
  rdRes : Nat
  /-- ISOCHRONOUS reservation for writes, MB/s (R49). -/
  wrRes : Nat
  /-- LINK_SHORT holds (R49). -/
  short : Bool
  /-- ASPM L1 (R47). -/
  l1 : Bool
  /-- LTR latency tolerance last reported in µs, 0 before the first report (R47). -/
  ltr : Nat
  /-- uptime of the last request of the device (R47). -/
  lastReq : Nat
deriving DecidableEq, Repr

/-- Link after reset. -/
def Link.reset : Link :=
  { up := false
    speed := 1
    width := 1
    rdRes := 400
    wrRes := 400
    short := false
    l1 := false
    ltr := 0
    lastReq := 0 }

/-- A ring descriptor and what the device keeps beside it (R68-R85). -/
structure Ring where
  /-- BASE (R68). -/
  base : Nat
  /-- LOG2N (R68). -/
  log2n : Nat
  /-- TYPE (R69). -/
  type : Nat
  /-- ESIZE (R68). -/
  esize : Nat
  /-- DOMAIN (R68). -/
  domain : Nat
  /-- OWNER (R68). -/
  owner : Nat
  /-- VECTOR (R68). -/
  vector : Nat
  /-- STATE (R68). -/
  st : RingSt
  /-- WMARK (R68). -/
  wmark : Nat
  /-- BIND (R68). -/
  bind : Nat
  /-- HEAD (R68). -/
  head : Nat
  /-- TAIL (R68). -/
  tail : Nat
  /-- ERR (R85). -/
  err : Nat
  /-- CNT_A (R85). -/
  cntA : Nat
  /-- CNT_B (R85). -/
  cntB : Nat
  /-- DIDX as published (R70). -/
  didx : Nat
  /-- SC of the last publication (R70). -/
  pubSc : Nat
  /-- the watermark condition is armed (R74). -/
  armed : Bool
  /-- a watermark message follows the next publication (R74). -/
  wmDue : Bool
  /-- ISOCHRONOUS read credit charged, in bytes per second (R82). -/
  rdCr : Nat
  /-- ISOCHRONOUS write credit charged, in bytes per second (R82). -/
  wrCr : Nat
  /-- pages barred for the ring (IOVA / 4,096) (R56). -/
  barred : List Nat
  /-- records of the device held for want of space, oldest first, as bytes (R81). -/
  staged : List (List Nat)
  /-- count of records written (R76). -/
  recSeq : Nat
  /-- tag of the RING_DESTROY that drains the ring (R83). -/
  endTag : Option Nat
  /-- SC that the device expects of the entry at HEAD, by which its reads are paced (R60). -/
  nextSc : Option Nat
  /-- entries not consumed, for that command's RESULT (R83). -/
  drop : Nat
  /-- requests that ended by timeout while it drained (R83). -/
  timeouts : Nat
deriving DecidableEq, Repr

/-- Ring after reset. -/
def Ring.reset : Ring :=
  { base := 0
    log2n := 0
    type := 0
    esize := 0
    domain := 0
    owner := 0
    vector := 0
    st := .disabled
    wmark := 0
    bind := 0
    head := 0
    tail := 0
    err := 0
    cntA := 0
    cntB := 0
    didx := 0
    pubSc := 0
    armed := false
    wmDue := false
    rdCr := 0
    wrCr := 0
    barred := []
    staged := []
    recSeq := 0
    endTag := none
    nextSc := none
    drop := 0
    timeouts := 0 }

/-- A downstream notice (R88, R92). -/
structure Notice where
  /-- posted on MB62's sideband port (R88). -/
  side : Bool
  /-- PTR (R88). -/
  ptr : Nat
  /-- length in bytes, 64 to 65,536 (R88). -/
  len : Nat
  /-- sender tag (R88). -/
  tag : Nat
  /-- state (R92). -/
  st : NoticeSt
  /-- uptime of the posting (R94). -/
  since : Nat
  /-- the timeout flag rose for it before it was acknowledged (R88). -/
  late : Bool
deriving DecidableEq, Repr

/-- Notice after reset. -/
def Notice.reset : Notice :=
  { side := false
    ptr := 0
    len := 0
    tag := 0
    st := .queued
    since := 0
    late := false }

/-- An acknowledgement that has not been read (R88). -/
structure Ack where
  /-- sender tag (R88). -/
  tag : Nat
  /-- return code (R92). -/
  code : Nat
  /-- LATE (R88). -/
  late : Bool
deriving DecidableEq, Repr

/-- Ack after reset. -/
def Ack.reset : Ack :=
  { tag := 0
    code := 0
    late := false }

/-- One port of a mailbox channel (R88). -/
structure Port where
  /-- acknowledge queue, oldest first (R88). -/
  acks : List Ack
  /-- DN_TMO (R88). -/
  tmo : Bool
  /-- TMO_CODE (R88). -/
  tmoCode : Nat
  /-- OVF (R88). -/
  ovf : Bool
deriving DecidableEq, Repr

/-- Port after reset. -/
def Port.reset : Port :=
  { acks := []
    tmo := false
    tmoCode := 0
    ovf := false }

/-- An upstream message (R161) with its notice. -/
structure UpMsg where
  /-- slot of the upstream buffer (R96). -/
  slot : Nat
  /-- device sender tag (R96). -/
  tag : Nat
  /-- TYPE (R161). -/
  type : Nat
  /-- message bytes (R161). -/
  body : List Nat
  /-- uptime of its posting (R97). -/
  since : Nat
  /-- counted as TIMEOUT (R97). -/
  counted : Bool
  /-- posted again after BUSY (R161). -/
  again : Bool
deriving DecidableEq, Repr

/-- UpMsg after reset. -/
def UpMsg.reset : UpMsg :=
  { slot := 0
    tag := 0
    type := 0
    body := []
    since := 0
    counted := false
    again := false }

/-- A mailbox channel MB0-MB63. -/
structure Mbx where
  /-- downstream notices QUEUED or TAKEN, oldest first (R88). -/
  fifo : List Notice
  /-- the host port (R88). -/
  p0 : Port
  /-- MB62's sideband port (R88). -/
  p1 : Port
  /-- dropped doorbells (R131). -/
  ovfCnt : Nat
  /-- RESET_DISCARD acknowledgements (R131). -/
  discard : Nat
  /-- upstream notices, oldest first (R96). -/
  up : List UpMsg
  /-- next device tag (R96). -/
  upTag : Nat
  /-- messages removed by a reset of the function, to be posted again (R101). -/
  again : List UpMsg
  /-- messages refused with RECEIVER_DOWN (R96). -/
  upRefused : Nat
  /-- messages counted as TIMEOUT (R97). -/
  upTmo : Nat
  /-- messages answered with another code (R161). -/
  upOther : Nat
  /-- messages counted as RESET_DISCARD (R101). -/
  upDisc : Nat
  /-- completion binding (R98). -/
  cpl : Option Nat
  /-- vector (R98). -/
  vec : Nat
  /-- timeout in ms (R98). -/
  tmoMs : Nat
  /-- upstream buffer, 0 = none (R98). -/
  upbuf : Nat
  /-- messages to post again, with the uptime at which (R161). -/
  repost : List (Nat × UpMsg)
deriving DecidableEq, Repr

/-- Mbx after reset. -/
def Mbx.reset : Mbx :=
  { fifo := []
    p0 := Port.reset
    p1 := Port.reset
    ovfCnt := 0
    discard := 0
    up := []
    upTag := 0
    again := []
    upRefused := 0
    upTmo := 0
    upOther := 0
    upDisc := 0
    cpl := none
    vec := 0
    tmoMs := 10
    upbuf := 0
    repost := [] }

/-- A command tag (R114). -/
structure Tag where
  /-- state (R114). -/
  st : TagSt
  /-- how far an ACTIVE command is (R118). -/
  ph : TagPh
  /-- descriptor fields (R110). -/
  hdr : Option Hdr
  /-- the command and its payload (R114). -/
  cmd : Option Cmd
  /-- OPCODE (R114). -/
  opcode : Nat
  /-- master ID of the sender (R114). -/
  sender : Nat
  /-- completion is a direct reply (R91). -/
  side : Bool
  /-- CPL ring of its completion (R77). -/
  ring : Option Nat
  /-- address of the direct reply (R91). -/
  reply : Nat
  /-- place in acceptance order (R118). -/
  order : Nat
  /-- domains that still have to commit it, each with the effective sample (R118). -/
  effs : List (Nat × Nat)
  /-- domains that have committed it, each with the sample first affected (R118). -/
  done : List (Nat × Nat)
  /-- the record is marked to be dropped (R114). -/
  drop : Bool
  /-- LATE (R78). -/
  late : Bool
  /-- STATUS of the record (R78). -/
  status : Nat
  /-- LT of the record (R78). -/
  lt : Nat
  /-- domain of LT (R78). -/
  ltDom : Nat
  /-- RESULT of the record (R78). -/
  result : Nat
  /-- EPOCH of the record (R78). -/
  epoch : Nat
  /-- the record was held (R78). -/
  heldRec : Bool
  /-- index of its entry in the CPL ring while WRITTEN (R114). -/
  cplIdx : Nat
  /-- channels whose ramp, soft stop or identification the command still waits for (R123). -/
  waits : Nat
  /-- commands cancelled by this disable (R123). -/
  cancels : Nat
  /-- zero-crossing timeouts of this disable (R123). -/
  zctos : Nat
  /-- DMA requests of this disable ended by timeout (R123). -/
  reqs : Nat
  /-- its stamp fell into the past at a re-anchor: it waits for LOCKED (R35). -/
  lockWait : Bool
  /-- a CANCEL ends it at the next block boundary (R138). -/
  cancelAt : Bool
  /-- status that its completion will carry (R141). -/
  rstatus : Nat
  /-- contexts whose planning the completion waits for (R185). -/
  ctxs : List Nat
  /-- place in the order in which commands finished (R81). -/
  seq : Nat
  /-- result bytes that a stall of its stream holds back: address and bytes, oldest first (R56). -/
  outQ : List (Nat × List Nat)
  /-- status, LT and RESULT with which it completes once they are written (R56). -/
  fin : Option (Nat × Nat × Nat)
  /-- reserved fields of the payload as sent, which a signature covers (R155) (R5). -/
  rsvd : Nat
  /-- rings whose requests the disable waits for (R123). -/
  dma : List Nat
  /-- line-time of the first silent sample of a disable that waits for them (R123). -/
  endLt : Option Nat
deriving DecidableEq, Repr

/-- Tag after reset. -/
def Tag.reset : Tag :=
  { st := .free
    ph := .sched
    hdr := none
    cmd := none
    opcode := 0
    sender := 0
    side := false
    ring := none
    reply := 0
    order := 0
    effs := []
    done := []
    drop := false
    late := false
    status := 0
    lt := 0
    ltDom := 0
    result := 0
    epoch := 0
    heldRec := false
    cplIdx := 0
    waits := 0
    cancels := 0
    zctos := 0
    reqs := 0
    lockWait := false
    cancelAt := false
    rstatus := 0
    ctxs := []
    seq := 0
    outQ := []
    fin := none
    rsvd := 0
    dma := []
    endLt := none }

/-- A completion record that holds no tag (R115). -/
structure Tless where
  /-- tag as written (R115). -/
  tag : Nat
  /-- NOT_PERMITTED or BUSY (R115). -/
  status : Nat
  /-- OPCODE (R115). -/
  opcode : Nat
  /-- CPL ring (R115). -/
  ring : Option Nat
  /-- the reply goes to the sideband window (R91). -/
  side : Bool
  /-- function of the reply (R91). -/
  fn : Nat
  /-- address of the direct reply (R91). -/
  reply : Nat
  /-- mailbox channel, whose message follows a direct reply (R91). -/
  ch : Option Nat
  /-- its descriptor had AT_LT = 0 (R78). -/
  asap : Bool
  /-- it could not be written at once (R78). -/
  heldRec : Bool
deriving DecidableEq, Repr

/-- Tless after reset. -/
def Tless.reset : Tless :=
  { tag := 0
    status := 0
    opcode := 0
    ring := none
    side := false
    fn := 0
    reply := 0
    ch := none
    asap := false
    heldRec := false }

/-- A descriptor fetched and not yet accepted. -/
structure Raw where
  /-- where it came from (R77). -/
  via : Via
  /-- the notice's LEN (R91). -/
  len : Nat
  /-- address of its direct reply (R91). -/
  reply : Nat
  /-- of a mailbox command, the tag that was taken for it (R92). -/
  tag : Option Nat
  /-- descriptor, and for a mailbox the payload behind it (R110). -/
  bytes : List Byte
deriving DecidableEq, Repr

/-- Raw after reset. -/
def Raw.reset : Raw :=
  { via := .ring 0
    len := 0
    reply := 0
    tag := none
    bytes := [] }

/-- A firmware image or the profile library in the flash (R346). -/
structure Img where
  /-- VERSION (R346). -/
  version : Nat
  /-- FLOOR (R346). -/
  floor : Nat
  /-- the digest and signature pass (R137). -/
  valid : Bool
  /-- has passed STAGE_COMMIT (R153). -/
  committed : Bool
  /-- offset up to which the staging under way reaches (R155). -/
  next : Nat
  /-- a STAGE since the last STAGE_COMMIT or restart has invalidated it (R155). -/
  staging : Bool
  /-- header as staged (R346). -/
  hdr : Option ImgHdr
deriving DecidableEq, Repr

/-- Img after reset. -/
def Img.reset : Img :=
  { version := 0
    floor := 0
    valid := false
    committed := false
    next := 0
    staging := false
    hdr := none }

/-- The secure envelope of a channel (R154). -/
structure Env where
  /-- VMAX (R154). -/
  vmax : Nat
  /-- TMAX (R154). -/
  tmax : Nat
  /-- XMAX (R154). -/
  xmax : Nat
  /-- PLONG (R154). -/
  plong : Nat
  /-- LOCK (R154). -/
  lock : Bool
deriving DecidableEq, Repr

/-- Env after reset. -/
def Env.reset : Env :=
  { vmax := 6000
    tmax := 2500
    xmax := 20000
    plong := 600
    lock := false }

/-- The MRAM and the NOR flash (R13). -/
structure Nvm where
  /-- image A (R346). -/
  imgA : Img
  /-- image B (R346). -/
  imgB : Img
  /-- profile library (R346). -/
  lib : Img
  /-- a committed library takes effect at the next block boundary (R155). -/
  libNext : Bool
  /-- owner public key (R153). -/
  ownerKey : Option Nat
  /-- SELECT (R347). -/
  select : Nat
  /-- TRIAL (R347). -/
  trial : Bool
  /-- FAILED mark of image A (R347). -/
  failA : Bool
  /-- FAILED mark of image B (R347). -/
  failB : Bool
  /-- rollback floor (R347). -/
  floor : Nat
  /-- envelopes, the values before the first ENV_SET where not listed (R154). -/
  env : Tab Env
  /-- rail ceiling in 0.1 A (R154). -/
  rail : Nat
  /-- reference class of each channel, 0xFF (none) where not listed (R291). -/
  refClass : Tab Nat
  /-- Mordant ring, by slot (R352). -/
  ring : Tab MRec
  /-- SEQ of the next ring record (R352). -/
  next : Nat
  /-- first-fault area, by slot (R352). -/
  ff : Tab MRec
  /-- DROPPED (R357). -/
  ffDropped : Nat
  /-- clear count (R352). -/
  clears : Nat
  /-- power-cycle count (R352). -/
  cycles : Nat
  /-- clear-in-progress mark: areas, SEQ in force at acceptance, tag (R352). -/
  clearing : Option (Nat × Nat × Option Nat)
  /-- records lost in the power cycle (R351). -/
  lastLost : Nat
  /-- the power cycle ended with a power-fail record (R351). -/
  failRec : Bool
  /-- records lost in the previous power cycle, as POWER_ON reports them (R351). -/
  prevLost : Nat
  /-- the previous power cycle ended with a power-fail record (R351). -/
  prevFail : Bool
  /-- the power cycle, or the reset, ended a freeze (R351). -/
  frozeEnd : Bool
deriving DecidableEq, Repr

/-- Nvm after reset. -/
def Nvm.reset : Nvm :=
  { imgA := { version := 0x02040000, floor := 0, valid := true, committed := true, next := 0, staging := false, hdr := none }
    imgB := Img.reset
    lib := { version := 0x01000000, floor := 0, valid := true, committed := true, next := 0, staging := false, hdr := none }
    libNext := false
    ownerKey := none
    select := 0
    trial := false
    failA := false
    failB := false
    floor := 0
    env := []
    rail := 400
    refClass := []
    ring := []
    next := 0
    ff := []
    ffDropped := 0
    clears := 0
    cycles := 1
    clearing := none
    lastLost := 0
    failRec := false
    prevLost := 0
    prevFail := false
    frozeEnd := false }

/-- What the fault supervisor remembers of a KIND and SUBJECT (R353). -/
structure Sup where
  /-- KIND (R353). -/
  kind : Nat
  /-- SUBJECT (R353). -/
  subject : Nat
  /-- uptimes of its records of the last second (R353). -/
  times : List Nat
  /-- records suppressed (R353). -/
  supp : Nat
  /-- uptime of the last suppressed record (R353). -/
  lastAt : Nat
deriving DecidableEq, Repr

/-- Sup after reset. -/
def Sup.reset : Sup :=
  { kind := 0
    subject := 0
    times := []
    supp := 0
    lastAt := 0 }

/-- The fault supervisor's record queue (R353). -/
structure Mdt where
  /-- records not yet written, oldest first; at reset the POWER_ON record (R353). -/
  queue : List MRec
  /-- LOST (R357). -/
  lost : Nat
  /-- rate limits by KIND and SUBJECT (R353). -/
  sup : List Sup
deriving DecidableEq, Repr

/-- Mdt after reset. -/
def Mdt.reset : Mdt :=
  { queue := [{ MRec.reset with kind := 0x0F01, data := [1, 0, 0, 0, 0, 0, 0, 0, 0, 0], epoch := 1 }]
    lost := 0
    sup := [] }

/-- An MDT_EXPORT that runs (R156, R356). -/
structure Export where
  /-- its tag (R156). -/
  tag : Nat
  /-- AREA (R156). -/
  area : Nat
  /-- SEQ or index of the next record (R156). -/
  from_ : Nat
  /-- records still to go (R156). -/
  left : Nat
  /-- LOG ring (R156). -/
  ring : Nat
  /-- records exported (R156). -/
  sent : Nat
  /-- records skipped (R156). -/
  skipped : Nat
  /-- line-time at which it started (R119). -/
  lt : Nat
deriving DecidableEq, Repr

/-- Export after reset. -/
def Export.reset : Export :=
  { tag := 0
    area := 0
    from_ := 0
    left := 0
    ring := 0
    sent := 0
    skipped := 0
    lt := 0 }

/-- Sepia freeze and TAP (R358-R364). -/
structure Fz where
  /-- FZ_STAT.FROZEN (R363). -/
  frozen : Bool
  /-- FZ_STAT.TRIGGER (R363). -/
  trigger : Nat
  /-- FZ_STAT.THAWED (R363). -/
  thawed : Bool
  /-- uptime at which the two-wire trigger was armed (ARMED) (R363). -/
  armedAt : Option Nat
  /-- FZ_ADDR.PAGE (R363). -/
  page : Nat
  /-- Sepia hold on every power stage (R364). -/
  hold : Bool
  /-- byte offset that SEPIA_READ reads next (R363). -/
  tapAddr : Nat
  /-- header LT at the clock stop (R362). -/
  lt : Nat
  /-- header SC at the clock stop (R362). -/
  sc : Nat
  /-- header SEQ of the FREEZE record (R362). -/
  mdtSeq : Nat
  /-- header FLAGS [1]: a power die's frame was lost (R362). -/
  lost : Bool
  /-- header FLAGS [0]: an SRAM word is uncorrectable (R362). -/
  ue : Bool
  /-- number of the freeze image, of whose bytes the manual gives no layout (free values) (R361). -/
  img : Nat
deriving DecidableEq, Repr

/-- Fz after reset. -/
def Fz.reset : Fz :=
  { frozen := false
    trigger := 0
    thawed := false
    armedAt := none
    page := 0
    hold := false
    tapAddr := 0
    lt := 0
    sc := 0
    mdtSeq := 0
    lost := false
    ue := false
    img := 0 }

/-- The two-wire target (R325-R337). -/
structure Tw where
  /-- TW_STAT.SCL_STUCK (R333). -/
  sclStuck : Bool
  /-- TW_STAT.SDA_STUCK (R333). -/
  sdaStuck : Bool
  /-- TW_STAT.STRETCH_TO (R333). -/
  stretchTo : Bool
  /-- TW_STAT.SDA_HELD (R333). -/
  sdaHeld : Bool
  /-- TW_STAT.HOLDER (R333). -/
  holder : Bool
  /-- TW_STAT.PARTIAL (R333). -/
  partW : Bool
  /-- TW_STAT.AWAKE (R333). -/
  awake : Bool
  /-- TW_CNT.STUCKS (R333). -/
  stucks : Nat
  /-- TW_CNT.STRETCHES (R333). -/
  stretches : Nat
  /-- TW_CNT.PARTIALS (R333). -/
  partials : Nat
  /-- TW_CNT.WAKES (R333). -/
  wakes : Nat
  /-- ADDR[2:0] as sampled (R326). -/
  pins : Nat
  /-- ADDR2 (R327). -/
  addr2 : Nat
  /-- MMODE (R327). -/
  mmode : Nat
  /-- MASK (R327). -/
  mask : Nat
  /-- stretch limit in ms (R327). -/
  stretch : Nat
  /-- level of the two-wire bus: TW_CONFIG sets it (R140). -/
  expert : Bool
  /-- TW_CONFIG settings that apply after the transaction in progress (R140). -/
  next : Option (Nat × Nat × Nat × Nat)
  /-- pointer (R328). -/
  ptr : Nat
  /-- where the transfer stands (R328). -/
  x : TwX
  /-- the transfer is a group access (R326). -/
  group : Bool
  /-- bytes of the word being written: offset and byte (R329). -/
  word : List (Nat × Nat)
  /-- bytes of the read snapshot still to be returned (R330). -/
  snap : List Nat
  /-- the read began at bytes 1-3 of a word and returns live bytes (R330). -/
  live : Bool
  /-- no byte of the read has been returned yet (R404). -/
  first : Bool
  /-- the read is suspended (R336). -/
  suspended : Bool
  /-- the last address or byte was acknowledged (R326). -/
  ack : Bool
  /-- the 50 µs of a wake run (R337). -/
  waking : Bool
  /-- uptime of the last STOP (R337). -/
  stopAt : Nat
  /-- uptime of each cause's last event (R335). -/
  seen : List (Nat × Nat)
deriving DecidableEq, Repr

/-- Tw after reset. -/
def Tw.reset : Tw :=
  { sclStuck := false
    sdaStuck := false
    stretchTo := false
    sdaHeld := false
    holder := false
    partW := false
    awake := true
    stucks := 0
    stretches := 0
    partials := 0
    wakes := 0
    pins := 0
    addr2 := 0
    mmode := 0
    mask := 127
    stretch := 10
    expert := false
    next := none
    ptr := 0
    x := .idle
    group := false
    word := []
    snap := []
    live := false
    first := false
    suspended := false
    ack := false
    waking := false
    stopAt := 0
    seen := [] }

/-- Vermilion and the emergency layer (R276-R280). -/
structure Emg where
  /-- EMG_MUTE.MUTE (R278). -/
  mute : Bool
  /-- EMG_MUTE.HARD (R278). -/
  hard : Bool
  /-- EMG_MUTE.RAMP in 0.1 ms (R278). -/
  ramp : Nat
  /-- EMG_CFG.OUT_PIN (R278). -/
  outPin : Bool
  /-- EMG_CFG.PIN_HARD (R278). -/
  pinHard : Bool
  /-- EMG_CFG.PIN_RAMP in 0.1 ms (R278). -/
  pinRamp : Nat
  /-- EMG_STAT.PIN_HELD (R278). -/
  pinHeld : Bool
  /-- EMG_STAT.PIN_COUNT (R278). -/
  pinCount : Nat
  /-- VERM_IN_N is asserted (after its filter) (R278). -/
  verm : Bool
  /-- the command source asserts (R159). -/
  cmdSet : Bool
  /-- HARD of the command source (R158). -/
  cmdHard : Bool
  /-- RAMP of the command source in 0.1 ms (R158). -/
  cmdRamp : Nat
  /-- EMG_CFG.OUT_REG (R278). -/
  outReg : Bool
  /-- EMG_CFG.OUT_CMD (R278). -/
  outCmd : Bool
  /-- EMG_CFG.OUT_LATCH (R278). -/
  outLatch : Bool
  /-- EMG_CFG.PIN_LATCH (R278). -/
  pinLatch : Bool
  /-- EMG_CFG.OUT_PIN at the assertion of PERST_N (R277). -/
  outAtPerst : Bool
  /-- the layer's gain, 0 to 1 (R276). -/
  level : Rat
  /-- gain from which the ramp under way started (R276). -/
  ramp0 : Rat
  /-- uptime at which the ramp under way started (R276). -/
  rampAt : Nat
  /-- length of the ramp under way in µs, 0 = none (R276). -/
  rampLen : Nat
  /-- the ramp under way falls (R276). -/
  down : Bool
  /-- EMG_STAT.ACTIVE as last seen by the cause block (R278). -/
  active : Bool
deriving DecidableEq, Repr

/-- Emg after reset. -/
def Emg.reset : Emg :=
  { mute := false
    hard := false
    ramp := 20
    outPin := true
    pinHard := false
    pinRamp := 20
    pinHeld := false
    pinCount := 0
    verm := false
    cmdSet := false
    cmdHard := false
    cmdRamp := 20
    outReg := false
    outCmd := false
    outLatch := false
    pinLatch := false
    outAtPerst := true
    level := 1
    ramp0 := 1
    rampAt := 0
    rampLen := 0
    down := false
    active := false }

/-- The lock file (R104). -/
structure Locks where
  /-- owner of each held lock (R104). -/
  owner : Tab Nat
  /-- LCK_ERR.IGNORED (R104). -/
  ignored : Nat
  /-- LCK_ERR.FORCED (R104). -/
  forced : Nat
deriving DecidableEq, Repr

/-- Locks after reset. -/
def Locks.reset : Locks :=
  { owner := []
    ignored := 0
    forced := 0 }

/-- The states of a channel (R220); retry is the retry wait of a stage fault (R268). -/
inductive ChSt where
  | disabled | softStart | identify | switching | softStop | hiz | latched | retry
deriving DecidableEq, Repr

/-- An entry of an SRC ring staged for an object (R75). -/
structure SrcE where
  /-- SC of the first sample (R75). -/
  sc : Nat
  /-- END, DISCONT (R75). -/
  flags : Nat
  /-- SEQ (R75). -/
  seq : Nat
  /-- samples, Q1.31 (R75). -/
  samples : List Int
deriving DecidableEq, Repr

/-- SrcE after reset. -/
def SrcE.reset : SrcE :=
  { sc := 0
    flags := 0
    seq := 0
    samples := [] }

/-- A held anchor of an object (R194). -/
structure Anchor where
  /-- generation (R194). -/
  gen : Nat
  /-- X in 0.1 mm (R194). -/
  x : Int
  /-- Y (R194). -/
  y : Int
  /-- Z (R194). -/
  z : Int
deriving DecidableEq, Repr

/-- Anchor after reset. -/
def Anchor.reset : Anchor :=
  { gen := 0
    x := 0
    y := 0
    z := 0 }

/-- An object OBJ0-OBJ255 (R165-R201). -/
structure Obj where
  /-- source: 0 none, 1 SRC ring, 2 TDM slot (R144). -/
  src : Nat
  /-- ring number, or port × 32 + slot (R144). -/
  bind : Nat
  /-- domain (R175). -/
  dom : Nat
  /-- priority (R175). -/
  prio : Nat
  /-- bulk delay D_b (R175). -/
  bulk : Nat
  /-- LDLY ring bound (R143). -/
  ldly : Option Nat
  /-- the ring regime is in force (R166). -/
  ringReg : Bool
  /-- blocks still to run of the dip: 2 ramp out, 1 ramp in (R169). -/
  dip : Nat
  /-- bulk delay and LDLY ring that take effect after the ramp out (R169). -/
  bulkNext : Option (Nat × Option Nat)
  /-- no regime can realise D_b (R168). -/
  noReg : Bool
  /-- level of the render parameters (R122). -/
  expert : Bool
  /-- basic inputs ignored (R130). -/
  basicIgn : Nat
  /-- stored position X (R175). -/
  x : Int
  /-- stored position Y (R175). -/
  y : Int
  /-- stored position Z (R175). -/
  z : Int
  /-- object gain in 1/256 dB; -32768 for OFF (R175). -/
  gain : Int
  /-- current anchor (R194). -/
  cur : Option Anchor
  /-- previous anchor (R194). -/
  prev : Option Anchor
  /-- OBJ_STALE (R195). -/
  stale : Bool
  /-- SC ranges of the long-delay history not written: from, up to (R61). -/
  gaps : List (Nat × Nat)
  /-- the whole history is a gap until rewritten (R61). -/
  allGap : Bool
  /-- SC from which the rewriting counts (R61). -/
  allGapTo : Nat
  /-- entries in staging, oldest first (R60). -/
  staged : List SrcE
  /-- SC of the last accepted entry (R75). -/
  lastSc : Option Nat
  /-- SEQ of the last entry played (R75). -/
  lastSeq : Nat
  /-- the last entry played carried END (R75). -/
  lastEnd : Bool
  /-- an entry has been played since the source was bound (R80). -/
  played : Bool
  /-- the last block had data (R80). -/
  present : Bool
  /-- staged data was lost to an uncorrectable error and the object has not rejoined (R341). -/
  ue : Bool
  /-- SC of the last rendered entry (R130). -/
  scLast : Nat
  /-- absent blocks (R130). -/
  underrun : Nat
  /-- fetching has stopped: every context parked (R181). -/
  stopped : Bool
  /-- delay line, newest sample first, full scale 1; zeros beyond the list (R165). -/
  line : List Rat
  /-- last sample of the source, from which a decay starts (R80). -/
  hold : Rat
  /-- uptime at which a wait for a zero crossing started (R123). -/
  wait : Option Nat
  /-- tag that removes the source (R123). -/
  waitTag : Option Nat
  /-- the ramp to silence of a removal runs (R123). -/
  ending : Bool
  /-- contexts carried in the last block (R130). -/
  carried : Nat
  /-- samples until a bad history word has been overwritten; 4,096 more in the block that ramps to silence (R64). -/
  bad : Nat
  /-- effective sample of the source's start (R33). -/
  startSc : Nat
  /-- long-delay history read back, by SC (R167). -/
  hist : List SrcE
  /-- SC up to which the long-delay ring has been written (R167). -/
  written : Nat
  /-- ring index of the position whose samples begin at SC 0, from the first write on (R71). -/
  ldlyBase : Option Nat
  /-- SC of the next long-delay position to be read (R60). -/
  ldlyNext : Nat
  /-- samples received from a TDM slot and not yet rendered, by SC (R319). -/
  tdmIn : List (Nat × Rat)
  /-- samples of the ramp-in done, 32 when over (R313). -/
  tdmRamp : Nat
  /-- samples of the decay done (R313). -/
  tdmGone : Nat
  /-- the history read position lies in a gap (R61). -/
  gapOpen : Bool
  /-- block boundary at which it was last recomputed (R188). -/
  basicAt : Option Nat
deriving DecidableEq, Repr

/-- Obj after reset. -/
def Obj.reset : Obj :=
  { src := 0
    bind := 0
    dom := 0
    prio := 8
    bulk := 0
    ldly := none
    ringReg := false
    dip := 0
    bulkNext := none
    noReg := false
    expert := false
    basicIgn := 0
    x := 0
    y := 0
    z := 0
    gain := 0
    cur := none
    prev := none
    stale := false
    gaps := []
    allGap := false
    allGapTo := 0
    staged := []
    lastSc := none
    lastSeq := 0
    lastEnd := false
    played := false
    present := false
    ue := false
    scLast := 0
    underrun := 0
    stopped := false
    line := []
    hold := 0
    wait := none
    waitTag := none
    ending := false
    carried := 0
    bad := 0
    startSc := 0
    hist := []
    written := 0
    ldlyBase := none
    ldlyNext := 0
    tdmIn := []
    tdmRamp := 0
    tdmGone := 16
    gapOpen := false
    basicAt := none }

/-- A render context (R172-R186). -/
structure Ctx where
  /-- gain in force, 1.0 = 1 (R175). -/
  gain : Rat
  /-- gain target, Q2.22 (R175). -/
  gainT : Nat
  /-- delay in force, samples (R175). -/
  delay : Rat
  /-- delay target, 1/64 sample (R175). -/
  delayT : Nat
  /-- taps in force (R175). -/
  taps : Nat
  /-- taps pending (R175). -/
  tapsT : Nat
  /-- shape in force (R175). -/
  shape : Option Nat
  /-- shape pending (R175). -/
  shapeT : Option Nat
  /-- ramp length in blocks of the next target (R175). -/
  ramp : Nat
  /-- blocks of the running ramp still to run (R172). -/
  left : Nat
  /-- blocks of the running delay ramp still to run (R172). -/
  leftD : Nat
  /-- a target has taken effect and its ramp is not yet planned (R172). -/
  pend : Bool
  /-- parked (R180). -/
  parked : Bool
  /-- held parked by an SRAM error or a bad shape (R64). -/
  fault : Bool
  /-- the coming block ramps to silence before it parks (R64). -/
  fade : Bool
  /-- planned for the coming block (R184). -/
  planned : Bool
  /-- CARRY (R186). -/
  carry : Nat
  /-- REACH_LIMIT (R186). -/
  reach : Nat
  /-- REACH_LIMIT before the recomputations of the present boundary (R188). -/
  reachWas : Nat
  /-- carried in the last block (R186). -/
  carried : Bool
  /-- taps and shape that are crossfaded from in this block (R173). -/
  old : Option (Nat × Option Nat)
  /-- SC of the first sample of its delay-line state (R180). -/
  born : Nat
  /-- shaping-filter history, newest first (R171). -/
  fir : List Rat
  /-- the same of the settings crossfaded from (R173). -/
  firOld : List Rat
deriving DecidableEq, Repr

/-- Ctx after reset. -/
def Ctx.reset : Ctx :=
  { gain := 0
    gainT := 0
    delay := 0
    delayT := 0
    taps := 24
    tapsT := 24
    shape := none
    shapeT := none
    ramp := 1
    left := 0
    leftD := 0
    pend := false
    parked := true
    fault := false
    fade := false
    planned := false
    carry := 0
    reach := 0
    reachWas := 0
    carried := false
    old := none
    born := 0
    fir := []
    firOld := [] }

/-- A shaping filter (R171). -/
structure Shape where
  /-- taps, Q1.31; zeros where not loaded (R171). -/
  taps : List Int
  /-- marked bad (R64). -/
  bad : Bool
deriving DecidableEq, Repr

/-- Shape after reset. -/
def Shape.reset : Shape :=
  { taps := []
    bad := false }

/-- Render totals and budget (R183-R186, R412). -/
structure Rend where
  /-- panning law (R175). -/
  law : Nat
  /-- PARAM in mm (R175). -/
  param : Nat
  /-- slots used so far in the period (R184). -/
  used : Nat
  /-- transition work booked for the next block (R184). -/
  booked : Nat
  /-- CARRIED_MAX of the running second (R412). -/
  carriedMax : Nat
  /-- SLOTS_MAX of the running second (R412). -/
  slotsMax : Nat
  /-- CARRIED_MAX of the last second (R412). -/
  carriedLast : Nat
  /-- SLOTS_MAX of the last second (R412). -/
  slotsLast : Nat
  /-- SHORT_SECONDS (R412). -/
  shortSec : Nat
  /-- uptime at which the running uptime second of the render totals started (R417) (R186). -/
  shortAt : Nat
deriving DecidableEq, Repr

/-- Rend after reset. -/
def Rend.reset : Rend :=
  { law := 1
    param := 250
    used := 0
    booked := 0
    carriedMax := 0
    slotsMax := 0
    carriedLast := 0
    slotsLast := 0
    shortSec := 0
    shortAt := 0 }

/-- A new state of one object in the shadow bank (R200). -/
structure Upd where
  /-- object (R200). -/
  obj : Nat
  /-- X (R200). -/
  x : Int
  /-- Y (R200). -/
  y : Int
  /-- Z (R200). -/
  z : Int
  /-- gain (R200). -/
  gain : Int
  /-- records applied, for BASICIGN (R201). -/
  count : Nat
deriving DecidableEq, Repr

/-- Upd after reset. -/
def Upd.reset : Upd :=
  { obj := 0
    x := 0
    y := 0
    z := 0
    gain := 0
    count := 0 }

/-- A scene stream (R189-R203). -/
structure Stream where
  /-- enabled (R202). -/
  en : Bool
  /-- refresh period (R202). -/
  p : Nat
  /-- SCN ring (R202). -/
  ring : Option Nat
  /-- next expected frame E (R199). -/
  expect : Nat
  /-- shadow bank (R200). -/
  shadow : List Upd
  /-- frame the shadow bank is for (R200). -/
  shadowFor : Option Nat
  /-- refresh period that frame carried (R202). -/
  shadowP : Nat
  /-- first block whose render start may switch the bank (R198). -/
  shadowMin : Nat
  /-- anchors that objects held before that frame, previous and current, for its discard (R191). -/
  undo : List (Nat × Option Anchor × Option Anchor)
  /-- FRAMES_APPLIED (R203). -/
  applied : Nat
  /-- MISSED (R203). -/
  missed : Nat
  /-- LATE_DROP (R203). -/
  lateDrop : Nat
  /-- BAD_FRAME (R203). -/
  badFrame : Nat
  /-- BAD_RECORD (R203). -/
  badRec : Nat
  /-- STALE_REJECT (R203). -/
  staleRej : Nat
  /-- CLAMPED (R203). -/
  clamped : Nat
  /-- FOREIGN (R203). -/
  foreign : Nat
  /-- LATE_APPLY (R203). -/
  lateApply : Nat
deriving DecidableEq, Repr

/-- Stream after reset. -/
def Stream.reset : Stream :=
  { en := false
    p := 8
    ring := none
    expect := 0
    shadow := []
    shadowFor := none
    shadowP := 0
    shadowMin := 0
    undo := []
    applied := 0
    missed := 0
    lateDrop := 0
    badFrame := 0
    badRec := 0
    staleRej := 0
    clamped := 0
    foreign := 0
    lateApply := 0 }

/-- A ramp of a gain layer (R222): the value moves from `src` to `dst` over `len` samples, `pos` of them done. -/
structure Ramp where
  /-- value in force (R222). -/
  val : Rat
  /-- value the ramp started from (R222). -/
  src : Rat
  /-- value the ramp goes to (R222). -/
  dst : Rat
  /-- length in samples, 0 = no ramp (R222). -/
  len : Nat
  /-- samples done (R222). -/
  pos : Nat
  /-- raised cosine; linear otherwise (R222). -/
  cos : Bool
  /-- values of the samples before the ramp's effective sample, where an earlier ramp runs on, oldest first (R33). -/
  pre : List Rat
deriving DecidableEq, Repr

/-- Ramp after reset. -/
def Ramp.reset : Ramp :=
  { val := 1
    src := 1
    dst := 1
    len := 0
    pos := 0
    cos := true
    pre := [] }

/-- The output loop of a channel (R206-R226). -/
structure Loop where
  /-- loop coefficients (R214). -/
  coef : Coef
  /-- coefficients are in force (written, or computed by basic tuning) (R216). -/
  coefSet : Bool
  /-- coefficients computed that apply at the next update (R215). -/
  coefNext : Option Coef
  /-- first integrator (R212). -/
  z1 : Rat
  /-- second integrator (R212). -/
  z2 : Rat
  /-- last bridge voltage command (R212). -/
  uPrev : Rat
  /-- filtered PVDD in V (R212). -/
  pf : Rat
  /-- observer voltage (R212). -/
  vh : Rat
  /-- observer current (R212). -/
  ih : Rat
  /-- load-current estimate (R212). -/
  dh : Rat
  /-- prefilter history: three stages of x1, x2, y1, y2 (R212). -/
  pre : List Rat
  /-- modulation index (R207). -/
  m : Rat
  /-- half-width of half-bridge A in edge steps (R207). -/
  hA : Nat
  /-- half-width of half-bridge B in edge steps (R207). -/
  hB : Nat
  /-- reference of the last update as a share of VFS (R211). -/
  ref : Rat
  /-- drive after layer 5 of the block being presented, oldest first (R242). -/
  drv : List Rat
  /-- drive samples rendered that the interpolator has not reached, oldest first (R211). -/
  upQ : List Rat
  /-- drive samples in the interpolator's span, newest first (R211). -/
  up : List Rat
  /-- fractional phase of the interpolator: loop updates since the newest sample (R29). -/
  upPh : Rat
  /-- loop updates of the identification done (R216). -/
  idN : Nat
  /-- MOD_CLIP (R208). -/
  modClip : Nat
  /-- 1 default stagger, 0 PHASE (R209). -/
  pmode : Nat
  /-- PHASE (R209). -/
  phase : Nat
  /-- distance of the carrier offset in force from its goal, in edge steps; 0 is the stagger of reset (R209). -/
  slip : Rat
  /-- place in the carrier period at the last update, in PLL clocks (R209). -/
  carClk : Nat
  /-- EDGEERR (R218). -/
  edgeErr : Nat
  /-- last commanded edges of half-bridge A beyond the window, newest first (R219). -/
  winA : List Bool
  /-- the same of half-bridge B (R219). -/
  winB : List Bool
  /-- last sensed voltage (R12). -/
  lastV : Rat
  /-- last sensed current (R12). -/
  lastI : Rat
  /-- the last update used a replaced frame (R12). -/
  replaced : Bool
  /-- consecutive updates of voltage modulator overload (R210). -/
  ovV : Nat
  /-- consecutive updates of current modulator overload (R210). -/
  ovI : Nat
  /-- the next update holds the integrators: it contains a decimation reset (R239). -/
  holdInt : Bool
  /-- uptime since which the pair's share error exceeds 20 % (R224). -/
  shareAt : Option Nat
deriving DecidableEq, Repr

/-- Loop after reset. -/
def Loop.reset : Loop :=
  { coef := Coef.zero
    coefSet := false
    coefNext := none
    z1 := 0
    z2 := 0
    uPrev := 0
    pf := 36
    vh := 0
    ih := 0
    dh := 0
    pre := [0, 0, 0, 0, 0, 0, 0, 0, 0, 0, 0, 0]
    m := 0
    hA := 8000
    hB := 8000
    ref := 0
    drv := []
    upQ := []
    up := []
    upPh := 0
    idN := 0
    modClip := 0
    pmode := 1
    phase := 0
    slip := 0
    carClk := 0
    edgeErr := 0
    winA := []
    winB := []
    lastV := 0
    lastI := 0
    replaced := false
    ovV := 0
    ovI := 0
    holdInt := false
    shareAt := none }

/-- Speaker protection of a channel (R242-R260). -/
structure Prot where
  /-- profile ID (R260). -/
  profile : Nat
  /-- thermal constants (R247). -/
  const : ConstSet
  /-- excursion parameters (R251). -/
  ts : TsSet
  /-- profile limit VMAX in 10 mV (R245). -/
  pVmax : Nat
  /-- profile limit TMAX in 0.1 °C (R245). -/
  pTmax : Nat
  /-- profile limit XMAX in µm (R245). -/
  pXmax : Nat
  /-- profile limit PLONG in 0.1 W (R245). -/
  pPlong : Nat
  /-- profile nominal impedance in mΩ (R245). -/
  pZ : Nat
  /-- profile VFS in mV (R245). -/
  pVfs : Nat
  /-- working limit VMAX (R243). -/
  vmax : Nat
  /-- working limit TMAX (R243). -/
  tmax : Nat
  /-- working limit XMAX (R243). -/
  xmax : Nat
  /-- working limit PLONG (R243). -/
  plong : Nat
  /-- protection level (R260). -/
  expert : Bool
  /-- coil temperature in °C (R246). -/
  tc : Rat
  /-- magnet temperature (R246). -/
  tm : Rat
  /-- frame temperature (R246). -/
  tf : Rat
  /-- ambient estimate (R246). -/
  ta : Rat
  /-- excursion gain (R252). -/
  gx : Rat
  /-- thermal gain (R250). -/
  gt : Rat
  /-- long-term power gain (R254). -/
  gp : Rat
  /-- stage fold-back gain at the end of the block (R271). -/
  gf : Rat
  /-- fold-back gain at its start (R271). -/
  gfWas : Rat
  /-- rail trim (R257). -/
  gr : Rat
  /-- rail trim at the end of the coming block (R257). -/
  grT : Rat
  /-- clamp gain (R255). -/
  gc : Rat
  /-- dynamic high-pass corner in Hz (R253). -/
  fhp : Rat
  /-- corner at the start of the block: the coefficients move across it (R253). -/
  fhpWas : Rat
  /-- high-pass history (R253). -/
  hp : List Rat
  /-- block held for the look-ahead, after the dynamic high-pass, in V (R242). -/
  held : List Rat
  /-- that block after the fold-back gain, before the rail trim (R242). -/
  stage : List Rat
  /-- coil resistance of the discretisation in force (R251). -/
  rDisc : Rat
  /-- need of earlier samples, newest first (R252). -/
  need : List Rat
  /-- the same of the clamp (R255). -/
  needC : List Rat
  /-- model displacement (R251). -/
  mx : Rat
  /-- model velocity (R251). -/
  mu : Rat
  /-- model current (R251). -/
  mi : Rat
  /-- P_long (R254). -/
  pAvg : Rat
  /-- coil power of the last blocks referred to unity gain, newest first (R250). -/
  pHist : List Rat
  /-- last accepted R_meas in mΩ (R248). -/
  rmeas : Nat
  /-- RMEAS_REJECT (R248). -/
  rejects : Nat
  /-- FUSION_CLAMP (R249). -/
  fclamp : Nat
  /-- XLIM_OVER (R252). -/
  xlim : Nat
  /-- VCLAMP (R255). -/
  vclamp : Nat
  /-- RAIL_OVER (R257). -/
  railOver : Nat
  /-- an update of the block was clamped (R259). -/
  vclamped : Bool
  /-- audio demand in A (R256). -/
  ia : Rat
  /-- predicted demand of the previous block in W (R256). -/
  predDem : Rat
  /-- measured over predicted demand (R256). -/
  kappa : Rat
  /-- rail reservations of 0.20 A held (R258). -/
  resv : Nat
  /-- CREDIT in mA (R257). -/
  credit : Nat
  /-- PGAIN in 1/256 dB (R259). -/
  pgain : Int
  /-- PCAUSE (R259). -/
  pcause : Nat
  /-- PROT_LIMIT is open (R160). -/
  limOpen : Bool
  /-- the estimation window overlaps a DSYNC reset or an invalid period (R248). -/
  winBad : Bool
  /-- blocks of the estimation window so far (R248). -/
  winBlk : Nat
deriving DecidableEq, Repr

/-- Prot after reset. -/
def Prot.reset : Prot :=
  { profile := 0
    const := ConstSet.generic
    ts := TsSet.generic
    pVmax := 800
    pTmax := 1000
    pXmax := 1000
    pPlong := 20
    pZ := 8000
    pVfs := 8000
    vmax := 65535
    tmax := 65535
    xmax := 65535
    plong := 65535
    expert := false
    tc := 40
    tm := 40
    tf := 40
    ta := 40
    gx := 1
    gt := 1
    gp := 1
    gf := 1
    gfWas := 1
    gr := 1
    grT := 1
    gc := 1
    fhp := 0
    fhpWas := 0
    hp := [0, 0, 0, 0]
    held := []
    stage := []
    rDisc := 0
    need := []
    needC := []
    mx := 0
    mu := 0
    mi := 0
    pAvg := 0
    pHist := []
    rmeas := 0
    rejects := 0
    fclamp := 0
    xlim := 0
    vclamp := 0
    railOver := 0
    vclamped := false
    ia := 0
    predDem := 0
    kappa := 1
    resv := 0
    credit := 0
    pgain := 0
    pcause := 0
    limOpen := false
    winBad := false
    winBlk := 0 }

/-- A tripped cycle as the fault supervisor keeps it (R266). -/
structure Trip where
  /-- high side of half-bridge A tripped (R266). -/
  hiA : Bool
  /-- low side of A tripped (R266). -/
  loA : Bool
  /-- high side of B tripped (R266). -/
  hiB : Bool
  /-- low side of B tripped (R266). -/
  loB : Bool
  /-- the coarse differential voltage stayed below 10 % of PVDD (R266). -/
  low : Bool
  /-- the commanded index exceeded 0.3 (R266). -/
  idx : Bool
  /-- number of the carrier period (R264). -/
  cyc : Nat
  /-- uptime (R265). -/
  stamp : Nat
deriving DecidableEq, Repr

/-- Trip after reset. -/
def Trip.reset : Trip :=
  { hiA := false
    loA := false
    hiB := false
    loB := false
    low := false
    idx := false
    cyc := 0
    stamp := 0 }

/-- Power-stage faults of a channel (R263-R283). -/
structure Flt where
  /-- FCODE (R263). -/
  code : Nat
  /-- FLT: line-time of the last fault (R129). -/
  lt : Nat
  /-- OCTRIPS (R264). -/
  trips : Nat
  /-- consecutive tripped cycles (R265). -/
  cons : Nat
  /-- uptime of the last shutdown (R281). -/
  shutAt : Option Nat
  /-- uptime at which the shutdown counters were last met (R281). -/
  metAt : Option Nat
  /-- uptimes of the tripped cycles of the last WIN ms (R265). -/
  times : List Nat
  /-- last tripped cycles, newest first (R266). -/
  recent : List Trip
  /-- RETRIES (R268). -/
  retries : Nat
  /-- uptime at which the retry wait ends (R268). -/
  retryAt : Option Nat
  /-- probe step under way, 0 none (R267). -/
  probe : Nat
  /-- FAULT_CLEAR started the probe (R275). -/
  byClear : Bool
  /-- trips seen by the probe (R267). -/
  probeTrips : List Trip
  /-- uptime since which the channel runs clean in SWITCHING (R268). -/
  cleanAt : Option Nat
  /-- CH_LATCHED is open (R269). -/
  latchOpen : Bool
  /-- ILIM in 10 mA (R283). -/
  ilim : Nat
  /-- NCONS (R283). -/
  ncons : Nat
  /-- MTRIPS (R283). -/
  mtrips : Nat
  /-- WIN in ms (R283). -/
  win : Nat
  /-- TRETRY in 10 ms (R283). -/
  tretry : Nat
  /-- RLIM (R283). -/
  rlim : Nat
  /-- VDC in mV (R283). -/
  vdc : Nat
  /-- TDC in ms (R283). -/
  tdc : Nat
  /-- EDGEWIN (R283). -/
  edgewin : Nat
  /-- uptime since which Vdc exceeds VDC in magnitude (R274). -/
  dcAt : Option Nat
  /-- Vdc in mV (R274). -/
  dcV : Int
deriving DecidableEq, Repr

/-- Flt after reset. -/
def Flt.reset : Flt :=
  { code := 0
    lt := 0
    trips := 0
    cons := 0
    shutAt := none
    metAt := none
    times := []
    recent := []
    retries := 0
    retryAt := none
    probe := 0
    byClear := false
    probeTrips := []
    cleanAt := none
    latchOpen := false
    ilim := 900
    ncons := 16
    mtrips := 64
    win := 10
    tretry := 50
    rlim := 5
    vdc := 1000
    tdc := 100
    edgewin := 50
    dcAt := none
    dcV := 0 }

/-- A power die PD0-PD5 (R11, R270-R273). -/
structure Die where
  /-- level of the die's fault settings: OC_LIMITS, TH_LIMITS and DC_LIMITS set it, POLICY clears it (R122). -/
  expert : Bool
  /-- OC_POLICY (R270). -/
  oc : Nat
  /-- THERMAL_POLICY (R270). -/
  th : Nat
  /-- TFOLD in 0.1 °C (R283). -/
  tfold : Nat
  /-- thermal hold (R272). -/
  thermal : Bool
  /-- PVDD hold (R273). -/
  pvdd : Bool
  /-- the PVDD fault is an overvoltage (R273). -/
  overV : Bool
  /-- isolator hold (R273). -/
  iso : Bool
  /-- corrupted upstream frames counted (R12). -/
  frameBad : Nat
  /-- PVDD as last sensed, in mV (R273). -/
  mv : Nat
deriving DecidableEq, Repr

/-- Die after reset. -/
def Die.reset : Die :=
  { expert := false
    oc := 0
    th := 0
    tfold := 1300
    thermal := false
    pvdd := false
    overV := false
    iso := false
    frameBad := 0
    mv := 36000 }

/-- A channel pair OUT2p, OUT2p+1 (R224, R271, R272). -/
structure Pair where
  /-- bridged (R224). -/
  bridged : Bool
  /-- pair sensor in 0.1 °C (R271). -/
  temp : Int
  /-- sensor hold (R272). -/
  sensor : Bool
  /-- the sensor fault is a silent sensor (R160). -/
  silent : Bool
  /-- uptime since which the sensor reads plausibly below 130 °C (R272). -/
  okAt : Option Nat
  /-- its THERMAL_SHUTDOWN event is open (R272). -/
  tripped : Bool
  /-- THERMAL_FOLD is open (R271). -/
  folding : Bool
deriving DecidableEq, Repr

/-- Pair after reset. -/
def Pair.reset : Pair :=
  { bridged := false
    temp := 250
    sensor := false
    silent := false
    okAt := none
    tripped := false
    folding := false }

/-- Steps of a disable (R123): none, waiting for a zero crossing, waiting for the block boundary, ramping to silence. -/
inductive Stop where
  | no | wait | crossed | ramp
deriving DecidableEq, Repr

/-- The states of a TDM port (R312). -/
inductive PortSt where
  | off | unlocked | locked
deriving DecidableEq, Repr

/-- Where a diagnostic test of a channel stands (R287). -/
inductive TestPh where
  | idle | wait | run
deriving DecidableEq, Repr

/-- What one window of a test or of the pilot has demodulated: sums over its tap samples (R288, R289, R298). -/
structure Demod where
  /-- samples (R289). -/
  n : Nat
  /-- real part of the sum of v·e^(-jωt) (R289). -/
  vRe : Rat
  /-- its imaginary part (R289). -/
  vIm : Rat
  /-- real part of the sum of i·e^(-jωt) (R289). -/
  iRe : Rat
  /-- its imaginary part (R289). -/
  iIm : Rat
deriving DecidableEq, Repr

/-- Demod after reset. -/
def Demod.reset : Demod :=
  { n := 0
    vRe := 0
    vIm := 0
    iRe := 0
    iIm := 0 }

/-- Load diagnostics of a channel (R286-R303). -/
structure Diag where
  /-- test phase: none, accepted and waiting for its start, running (R287). -/
  ph : TestPh
  /-- tag of the command (R287). -/
  tag : Nat
  /-- command of the test: 1 DIAG_RUN, 2 DIAG_TONES, 4 ACOUSTIC (R295). -/
  kind : Nat
  /-- TEST: 0 AC tones, 1 DC probe, 2 both (R150). -/
  test : Nat
  /-- WHEN of the command (R151). -/
  when_ : Nat
  /-- the schedule start has been reached and the test waits for a quiet window (R296). -/
  window : Bool
  /-- lower tone in Hz (R150). -/
  flo : Nat
  /-- upper tone in Hz (R150). -/
  fhi : Nat
  /-- test level in 1/256 dB (R150). -/
  level : Int
  /-- measurement window in ms (R150). -/
  dur : Nat
  /-- uptime at which the test started (R287). -/
  since : Nat
  /-- µs from the start to the stimulus: mute ramp, soft start, identification (R287). -/
  lead : Nat
  /-- µs by which windows measured again delay the schedule (R289). -/
  shift : Nat
  /-- disturbed windows (R289). -/
  disturbed : Nat
  /-- the window under way is disturbed (R289). -/
  dirty : Bool
  /-- uptime since which a disturbed window waits for its cause to clear (R289). -/
  waitAt : Option Nat
  /-- windows of the test that stand measured (R289). -/
  judged : Nat
  /-- demodulated sums of its windows, in their order (R289). -/
  acc : List Demod
  /-- place of the stimulus in µs at the next block, carried by the sample clock (R289). -/
  pos : Option Rat
  /-- uptime since which the stimulus of an ended test ramps out (R301). -/
  outAt : Option Nat
  /-- the test ends with CLASS 0xFF (R292). -/
  failed : Bool
  /-- the test is abandoned because the channel is disabled (R292). -/
  gone : Bool
  /-- fault code of a shutdown during the test (R292). -/
  shut : Option Nat
  /-- TCOIL at the start (R295). -/
  tcoil : Int
  /-- clock-master line-time at which the measurement began (R295). -/
  startLt : Nat
  /-- the user mute stood before the test (R151). -/
  muted : Bool
  /-- the test has applied the user mute (R151). -/
  muteSet : Bool
  /-- tags of the CH_MUTE releases that wait for the end of the test's mute (R162). -/
  relTags : List Nat
  /-- the channel was DISABLED: a soft stop follows the test (R287). -/
  wasOff : Bool
  /-- acoustic stimulus (R150). -/
  stim : Nat
  /-- microphone mask of an acoustic measurement (R150). -/
  mics : Nat
  /-- magnitude of the DC probe's corrected drive voltage in V (R288). -/
  probeV : Rat
  /-- level of the electrical tests: DIAG_TONES sets it, DIAG_RUN clears it (R133). -/
  expert : Bool
  /-- DCLASS (R294). -/
  dclass : Nat
  /-- pilot enabled (R298). -/
  pilEn : Bool
  /-- pilot frequency in 0.1 Hz (R298). -/
  pilFreq : Nat
  /-- pilot level in 1/256 dBV (R150). -/
  pilLevel : Int
  /-- ramp of the pilot (R298). -/
  pilR : Ramp
  /-- samples of the pilot played (R298). -/
  pilPos : Nat
  /-- uptime at which the pilot window began (R298). -/
  pilAt : Nat
  /-- clock-master line-time at which the pilot window began (R295). -/
  pilLt : Nat
  /-- the pilot window overlaps a test or a DSYNC reset (R287). -/
  pilBad : Bool
  /-- demodulated sums of the two halves of the pilot window (R298). -/
  pilAcc : List Demod
  /-- tags of the PILOT disables that wait for the end of its ramp (R123). -/
  pilTags : List Nat
  /-- PLT_Z.ZRE (R299). -/
  zre : Nat
  /-- PLT_Z.ZIM (R299). -/
  zim : Nat
  /-- PLT_MAG.ZMAG (R299). -/
  zmag : Nat
  /-- PLT_MAG.PHASE (R299). -/
  phase : Nat
  /-- PLT_STAT.VALID (R299). -/
  valid : Bool
  /-- PLT_STAT.INCOH (R299). -/
  incoh : Bool
  /-- PLT_STAT.BELOW (R299). -/
  below : Bool
  /-- PLT_STAT.ABOVE (R299). -/
  above : Bool
  /-- PLT_STAT.AGE (R299). -/
  age : Nat
  /-- PLT_STAT.COUNT (R299). -/
  count : Nat
  /-- PLT_WIN.WLO (R299). -/
  wlo : Nat
  /-- PLT_WIN.WHI (R299). -/
  whi : Nat
deriving DecidableEq, Repr

/-- Diag after reset. -/
def Diag.reset : Diag :=
  { ph := .idle
    tag := 0
    kind := 0
    test := 0
    when_ := 0
    window := false
    flo := 400
    fhi := 12000
    level := -7680
    dur := 100
    since := 0
    lead := 0
    shift := 0
    disturbed := 0
    dirty := false
    waitAt := none
    judged := 0
    acc := []
    pos := none
    outAt := none
    failed := false
    gone := false
    shut := none
    tcoil := 0
    startLt := 0
    muted := false
    muteSet := false
    relTags := []
    wasOff := false
    stim := 0
    mics := 0
    probeV := 0
    expert := false
    dclass := 255
    pilEn := false
    pilFreq := 80
    pilLevel := -10240
    pilR := { Ramp.reset with val := 0, src := 0, dst := 0 }
    pilPos := 0
    pilAt := 0
    pilLt := 0
    pilBad := false
    pilAcc := []
    pilTags := []
    zre := 0
    zim := 0
    zmag := 0
    phase := 0
    valid := false
    incoh := false
    below := false
    above := false
    age := 0
    count := 0
    wlo := 0
    whi := 0 }

/-- What the sense chains' consumers have gathered of a channel since its last block and in its estimation window (R231). -/
structure Sums where
  /-- GUARD samples (R246). -/
  n : Nat
  /-- sum of i squared (R246). -/
  i2 : Rat
  /-- sum of the high-passed i squared (R246). -/
  hf2 : Rat
  /-- sum of v·i (R254). -/
  p : Rat
  /-- sum of the positive v·i (R256). -/
  pPos : Rat
  /-- history of the 1 kHz high-pass: x1, x2, y1, y2 (R246). -/
  hf : List Rat
  /-- history of the DC detector's 4 Hz low-pass (R274). -/
  dc : List Rat
  /-- Vdc in V (R274). -/
  vdc : Rat
  /-- history of the 1 kHz low-pass of the voltage, two stages (R248). -/
  lpV : List Rat
  /-- the same of the current (R248). -/
  lpI : List Rat
  /-- excursion model driven by the measured current: displacement, velocity, current (R248). -/
  mot : List Rat
  /-- window's sum of v·i (R248). -/
  vi : Rat
  /-- window's sum of v_mot·i (R248). -/
  motI : Rat
  /-- window's sum of i squared (R248). -/
  ii : Rat
deriving DecidableEq, Repr

/-- Sums after reset. -/
def Sums.reset : Sums :=
  { n := 0
    i2 := 0
    hf2 := 0
    p := 0
    pPos := 0
    hf := []
    dc := []
    vdc := 0
    lpV := []
    lpI := []
    mot := []
    vi := 0
    motI := 0
    ii := 0 }

/-- A channel OUT0-OUT47: state, gain layers, and its loop, protection, fault and diagnostic state. -/
structure Chan where
  /-- state (R220). -/
  st : ChSt
  /-- CH_ENABLE's EN (R221). -/
  enabled : Bool
  /-- domain (R221). -/
  dom : Nat
  /-- it counts as disabled for its contexts: from DISABLED, or a disable in LATCHED, to CH_ENABLE (R163). -/
  off : Bool
  /-- uptime at which the present state began (R220). -/
  since : Nat
  /-- the identification is due (R221). -/
  firstId : Bool
  /-- IDFLAGS [0]: identification has run since power-on reset (R413). -/
  idRan : Bool
  /-- IDFLAGS [1]: its result was accepted (R413). -/
  idOk : Bool
  /-- identified output-filter resonance in Hz (R217). -/
  f0 : Nat
  /-- identified Q in 1/100 (R217). -/
  q : Nat
  /-- volume in 1/256 dB, -32768 for OFF (R141). -/
  vol : Int
  /-- layer 2, in 1/256 dB (R222). -/
  volR : Ramp
  /-- user mute (R141). -/
  mute : Bool
  /-- layer 3, user mute (R222). -/
  muteR : Ramp
  /-- layer 3, mutes the device itself makes (R25, R26, R29, R37, R343, R377, R418) (R26). -/
  aux : Ramp
  /-- opening and closing of the drive (R221). -/
  drive : Ramp
  /-- zero-crossing timeout in ms (R142). -/
  zcto : Nat
  /-- zero-crossing timeouts (R123). -/
  zctoCnt : Nat
  /-- step of a disable (R123). -/
  stop : Stop
  /-- uptime at which the wait for a zero crossing started (R123). -/
  waitAt : Nat
  /-- tags of the disables that the channel's silence completes (R123). -/
  stopTags : List Nat
  /-- tag of the CH_ENABLE that waits for the identification (R141). -/
  idTag : Option Nat
  /-- the drive opens over 2 ms after this soft start (R220). -/
  warm : Bool
  /-- uptime at which the drive opens (R221). -/
  openAt : Nat
  /-- first sample presented with drive after CH_ENABLE, by the domain's SC (R221). -/
  driveAt : Option Nat
  /-- KIND of the record that opened a counted outage of the channel, 0 none (R341). -/
  outage : Nat
  /-- BUS_CLIP (R179). -/
  busClip : Nat
  /-- output of the bus of the block being presented, oldest first (R178). -/
  bus : List Rat
  /-- reason of the last user-mute change (R412). -/
  mirSrc : Nat
  /-- basic inputs of the loop ignored (R130). -/
  basicIgn : Nat
  /-- level of the loop (R122). -/
  loopExpert : Bool
  /-- output loop (R212). -/
  loop : Loop
  /-- what the consumers of its sense chains have gathered (R231). -/
  sums : Sums
  /-- speaker protection (R243). -/
  prot : Prot
  /-- power-stage faults (R263). -/
  flt : Flt
  /-- load diagnostics (R286). -/
  diag : Diag
deriving DecidableEq, Repr

/-- Chan after reset. -/
def Chan.reset : Chan :=
  { st := .disabled
    enabled := false
    dom := 0
    off := true
    since := 0
    firstId := true
    idRan := false
    idOk := false
    f0 := 0
    q := 0
    vol := 0
    volR := { Ramp.reset with val := 0, src := 0, dst := 0, cos := false }
    mute := false
    muteR := Ramp.reset
    aux := { Ramp.reset with val := 0, src := 0, dst := 0 }
    drive := { Ramp.reset with val := 0, src := 0, dst := 0 }
    zcto := 10
    zctoCnt := 0
    stop := .no
    waitAt := 0
    stopTags := []
    idTag := none
    warm := false
    openAt := 0
    driveAt := none
    outage := 0
    busClip := 0
    bus := []
    mirSrc := 0
    basicIgn := 0
    loopExpert := false
    loop := Loop.reset
    sums := Sums.reset
    prot := Prot.reset
    flt := Flt.reset
    diag := Diag.reset }

/-- A decimation chain (R227-R241). -/
structure Chain where
  /-- preset: 0 LOOP, 1 GUARD, 2 MEASURE, 3 SURVEY (R240). -/
  preset : Nat
  /-- bank A of the FIR, none while it holds the standard coefficients (R233). -/
  bankA : Option (List Int)
  /-- bank B (R233). -/
  bankB : Option (List Int)
  /-- active bank (R233). -/
  active : Nat
  /-- DC-block corner in 0.1 Hz (R236). -/
  corner : Nat
  /-- freeze by command (R236). -/
  cmdFreeze : Bool
  /-- freeze by the device (R236). -/
  intFreeze : Bool
  /-- offset estimate, Q1.31 (R236). -/
  e : Rat
  /-- uptime at which the chain restarted with empty histories after its die's PVDD returned (R236). -/
  restartAt : Option Nat
  /-- level of the chain (R122). -/
  expert : Bool
  /-- OVL, saturating (R413). -/
  ovl : Nat
  /-- uptime of the last phase reset (R239). -/
  resetAt : Nat
  /-- a phase reset falls into the interval under way (R238). -/
  rstDue : Bool
  /-- modulator or PDM bits in the CIC's span, newest first (R228). -/
  bits : List Bool
  /-- bits since the last CIC output (R238). -/
  bitN : Nat
  /-- CIC outputs since the last phase reset, modulo 512: the phase of every later stage (R238). -/
  cnt : Nat
  /-- sample histories, newest first: 0-4 HB1m-HB5m, 5-13 HB1-HB9, 14-17 the taps' (R233), 18 the last four CIC outputs (R228). -/
  fir : Tab (List Rat)
  /-- last output of the LOOP, GUARD, MEASURE and SURVEY taps, Q1.31 (R228). -/
  taps : List Int
  /-- fast coarse path: largest magnitude of the last four CIC outputs (R235). -/
  coarse : Nat
  /-- sign of the sample that gave it (R235). -/
  coarseNeg : Bool
deriving DecidableEq, Repr

/-- Chain after reset. -/
def Chain.reset : Chain :=
  { preset := 2
    bankA := none
    bankB := none
    active := 0
    corner := 20
    cmdFreeze := false
    intFreeze := false
    e := 0
    restartAt := none
    expert := false
    ovl := 0
    resetAt := 0
    rstDue := false
    bits := []
    bitN := 0
    cnt := 0
    fir := []
    taps := [0, 0, 0, 0]
    coarse := 0
    coarseNeg := false }

/-- States of a port slot's gate (R315, R316, R318): silent, waiting to ramp in, ramping in, open, waiting to ramp out, crossed and waiting for the block boundary, ramping out, decaying under a non-audio mute, muted. -/
inductive GateSt where
  | shut | waitIn | up | open_ | waitOut | crossed | down | decay | muted
deriving DecidableEq, Repr

/-- The gate of a slot of a TDM port (R315, R316, R318). -/
structure Gate where
  /-- state (R316). -/
  st : GateSt
  /-- uptime at which the wait began (R316). -/
  since : Nat
  /-- timeout of that wait in ms (R316). -/
  limit : Nat
  /-- frames of the ramp or decay done (R316). -/
  pos : Nat
  /-- last sample passed (R318). -/
  last : Int
deriving DecidableEq, Repr

/-- Gate after reset. -/
def Gate.reset : Gate :=
  { st := .shut
    since := 0
    limit := 10
    pos := 0
    last := 0 }

/-- A received frame of the block that a port holds (R306, R308). -/
structure TFrame where
  /-- slot containers (R303). -/
  slots : List Int
  /-- inserted as zeros (R314). -/
  silent : Bool
  /-- largest magnitude of the frame and of the frame sent with it (R308). -/
  level : Nat
  /-- line-time of its start period (R310). -/
  lt : Nat
  /-- excluded from the choice of a slip (R308). -/
  excl : Bool
deriving DecidableEq, Repr

/-- TFrame after reset. -/
def TFrame.reset : TFrame :=
  { slots := []
    silent := false
    level := 0
    lt := 0
    excl := false }

/-- A TDM port TDM0-TDM3 (R302-R318). -/
structure TPort where
  /-- slots (R323). -/
  slots : Nat
  /-- slot width (R323). -/
  width : Nat
  /-- data offset (R323). -/
  offset : Nat
  /-- frame-sync width (R323). -/
  fsw : Nat
  /-- polarity (R323). -/
  pol : Nat
  /-- role, 1 controller (R323). -/
  role : Nat
  /-- domain (R323). -/
  dom : Nat
  /-- state (R305). -/
  st : PortSt
  /-- enabled (R323). -/
  en : Bool
  /-- TDMI ring (R323). -/
  rxring : Option Nat
  /-- TDMO ring (R323). -/
  txring : Option Nat
  /-- receive mask (R323). -/
  rx : Nat
  /-- transmit mask (R323). -/
  tx : Nat
  /-- route of each transmit slot (R323). -/
  route : List Nat
  /-- slip group (R323). -/
  group : Nat
  /-- slip window in frames (R323). -/
  win : Nat
  /-- zero-crossing timeout in ms (R323). -/
  zcto : Nat
  /-- ZCTO count (R316). -/
  zctoCnt : Nat
  /-- SLIP_ADD (R131). -/
  slipAdd : Nat
  /-- SLIP_DROP (R131). -/
  slipDrop : Nat
  /-- SLIP_FORCED (R308). -/
  slipForced : Nat
  /-- FRAME_ERR (R314). -/
  frameErr : Nat
  /-- UNLOCKS (R305). -/
  unlocks : Nat
  /-- rate offset (R305). -/
  ppb : Int
  /-- NONAUDIO, one bit for each pair (R318). -/
  nonaudio : Nat
  /-- uptime of the last preamble of a pair (R318). -/
  preAt : Tab Nat
  /-- level of the port's format (R122). -/
  expert : Bool
  /-- basic inputs ignored (R122). -/
  basicIgn : Nat
  /-- consecutive frames in error (R314). -/
  errRun : Nat
  /-- uptime of the last start period (R305). -/
  lastAt : Nat
  /-- uptime at which the rate interval began (R305). -/
  rateAt : Nat
  /-- timestamp in ns of the frame with which it began (R305). -/
  rateT0 : Nat
  /-- timestamp in ns of the last frame (R305). -/
  rateT1 : Nat
  /-- frames between the two (R305). -/
  rateN : Nat
  /-- SC of the next received frame (R306). -/
  nextSc : Nat
  /-- SC of the next transmitted frame (R307). -/
  txNext : Nat
  /-- received offset of the last frame in frame periods (R306). -/
  delta : Rat
  /-- pending slip: true adds a frame, false drops one (R308). -/
  slip : Option Bool
  /-- held blocks until a pending slip is forced (R308). -/
  slipLeft : Nat
  /-- slip of the group's leader still to be followed: SC and direction (R309). -/
  slipAt : Option (Nat × Bool)
  /-- frames of the block being held, oldest first (R306). -/
  held : List TFrame
  /-- SC of the first of them (R306). -/
  heldSc : Nat
  /-- slip flags of the record in progress (R310). -/
  recFlags : Nat
  /-- frames released, by SC, until their transmit instant (R307). -/
  rxBuf : List (Nat × List Int)
  /-- gates: receive slots 0-31, transmit slots 32-63 (R316). -/
  gates : Tab Gate
  /-- gates of the slots that a ring being destroyed records or feeds: receive slots, and from 32 transmit slots; zero to one ring of each kind (R83). -/
  rgates : Tab Gate
  /-- slot values of the last frame released (R318). -/
  lastRx : List Int
  /-- slot values of the last frame sent (R307). -/
  lastTx : List Int
  /-- TDMO slots: 0 absent, else frames of the ramp-in done plus 1 (R313). -/
  txHave : Tab Nat
  /-- sample from which an absent TDMO slot decays (R313). -/
  txHold : Tab Int
  /-- a TDMO slot lacked data in the transmit block under way (R313). -/
  txMiss : Bool
  /-- frames of that decay done (R313). -/
  txGone : Tab Nat
  /-- masks to come and the tag that waits (R315). -/
  maskNext : Option (Nat × Nat × Nat)
  /-- tag of the disable under way (R123). -/
  endTag : Option Nat
  /-- first SC with which it may lock, from the effective sample of its enable (R33). -/
  onSc : Nat
  /-- SC from which the slots of a disable wait, its effective sample (R33). -/
  offSc : Nat
  /-- the receive slots have reached it (R33). -/
  offRx : Bool
  /-- the transmit slots have reached it (R33). -/
  offTx : Bool
  /-- first SC from which the slots of a disable that have ramped out are silent (R123). -/
  silentSc : Nat
  /-- the next frame is the first after a lock or a change (R308). -/
  fresh : Bool
deriving DecidableEq, Repr

/-- TPort after reset. -/
def TPort.reset : TPort :=
  { slots := 8
    width := 32
    offset := 1
    fsw := 0
    pol := 0
    role := 0
    dom := 0
    st := .off
    en := false
    rxring := none
    txring := none
    rx := 0
    tx := 0
    route := [65535, 65535, 65535, 65535, 65535, 65535, 65535, 65535, 65535, 65535, 65535, 65535, 65535, 65535, 65535, 65535, 65535, 65535, 65535, 65535, 65535, 65535, 65535, 65535, 65535, 65535, 65535, 65535, 65535, 65535, 65535, 65535]
    group := 0
    win := 256
    zcto := 10
    zctoCnt := 0
    slipAdd := 0
    slipDrop := 0
    slipForced := 0
    frameErr := 0
    unlocks := 0
    ppb := 0
    nonaudio := 0
    preAt := []
    expert := false
    basicIgn := 0
    errRun := 0
    lastAt := 0
    rateAt := 0
    rateT0 := 0
    rateT1 := 0
    rateN := 0
    nextSc := 0
    txNext := 0
    delta := 0
    slip := none
    slipLeft := 0
    slipAt := none
    held := []
    heldSc := 0
    recFlags := 0
    rxBuf := []
    gates := []
    rgates := []
    lastRx := []
    lastTx := []
    txHave := []
    txHold := []
    txMiss := false
    txGone := []
    maskNext := none
    endTag := none
    onSc := 0
    offSc := 0
    offRx := false
    offTx := false
    silentSc := 0
    fresh := false }

/-- A microphone input (R319-R322). -/
structure Mic where
  /-- uptime until which the microphone settles (R321). -/
  settle : Nat
  /-- declared faulty (R322). -/
  faulty : Bool
  /-- samples of its last block (R307). -/
  buf : List Int
  /-- uptime since which the bit stream is stuck (R322). -/
  stuckAt : Option Nat
deriving DecidableEq, Repr

/-- Mic after reset. -/
def Mic.reset : Mic :=
  { settle := 0
    faulty := false
    buf := []
    stuckAt := none }

/-- The PDM inputs (R319). -/
structure Pdm where
  /-- clock choice (R323). -/
  clk : Nat
  /-- microphone mask (R323). -/
  mask : Nat
  /-- microphone groups (R323). -/
  gmask : List Nat
  /-- uptime of the last block of microphone bits (R238). -/
  blkAt : Nat
deriving DecidableEq, Repr

/-- Pdm after reset. -/
def Pdm.reset : Pdm :=
  { clk := 1
    mask := 0
    gmask := [0, 0, 0, 0]
    blkAt := 0 }

/-- The acoustic measurement and the quiet windows of the device (R295-R300). -/
structure Acou where
  /-- MEAS ring bound (R150). -/
  ring : Option Nat
  /-- SEQ of the next measurement record (R301). -/
  seq : Nat
  /-- quiet windows (R296). -/
  wins : List QWin
  /-- mask of the windows that are open (R296). -/
  winOpen : Nat
  /-- channels that wait for their acoustic measurement (R298). -/
  queue : List Nat
deriving DecidableEq, Repr

/-- Acou after reset. -/
def Acou.reset : Acou :=
  { ring := none
    seq := 0
    wins := []
    winOpen := 0
    queue := [] }

/-- Attributes of a write on the host link: Relaxed Ordering, No Snoop (R46), EP (R64), and an ECRC digest (R42). -/
structure Attr where
  ro : Bool
  ns : Bool
  ep : Bool
  td : Bool
deriving DecidableEq, Repr

/-- What leaves the device over the host link and the pins, as the model records it (log entry 3). -/
inductive Out where
  | write (fn iova : Nat) (bus : Option Nat) (attr : Attr) (bytes : List Nat)
  | read (fn iova : Nat) (bus : Option Nat) (len : Nat)
  | walk (dom addr : Nat)
  | msix (fn vec : Nat)
  | ltr (us : Nat)
  | tap (word : Nat)
  | tdm (port sc pol : Nat) (fsync : Option Nat) (dout : List (Option Bool))
deriving DecidableEq, Repr

/-- Everything of the device but the command queue, the lock file and the sideband window. -/
structure Dev where
  /-- power, clocks, processor (R366-R380). -/
  sys : Sys
  /-- device-wide timebase parameters (R29-R40). -/
  tb : Tb
  /-- timebase domains TD0-TD3 (R25). -/
  doms : Tab Dom
  /-- what each register path holds for itself: 0 PF0, 1 PF1, 2 two-wire (R402). -/
  paths : Tab PathR
  /-- functions PF0 and PF1 (R42). -/
  fns : Tab Fn
  /-- translation unit (R50). -/
  trn : Trn
  /-- host link (R42). -/
  link : Link
  /-- ring descriptor store, ring 0-4095 (R68). -/
  rings : Tab Ring
  /-- mailbox channels MB0-MB63 (R87). -/
  mbxs : Tab Mbx
  /-- command tags 0-511 (R114). -/
  tags : Tab Tag
  /-- descriptors accepted so far, for the acceptance order (R118). -/
  accepts : Nat
  /-- commands finished so far, for the order of held completions (R81). -/
  dones : Nat
  /-- CMD ring that a descriptor was taken from last (R118); the first turn is ring 0's. -/
  cmdLast : Nat
  /-- descriptors fetched and not yet accepted (R116), oldest first. -/
  fetched : List Raw
  /-- records without a tag still to be written (R115), oldest first. -/
  tless : List Tless
  /-- MRAM and flash (R13). -/
  nvm : Nvm
  /-- fault supervisor's record queue (R353). -/
  mdt : Mdt
  /-- Sepia freeze (R358). -/
  fz : Fz
  /-- two-wire target (R325). -/
  tw : Tw
  /-- emergency layer (R276). -/
  emg : Emg
  /-- corrected single-bit errors by store code 1-6 (R10). -/
  sbe : Tab Nat
  /-- open faults, oldest first, with the SEQ of PF0's copy in the event and that of PF1's beside it (R124, R126). -/
  faults : List (Evt × Nat)
  /-- nonce of AUTH_CHALLENGE and the uptime of its issue (R153). -/
  nonce : Option (Nat × Nat)
  /-- cause of a processor restart that is due (R342). -/
  restartReq : Option Nat
  /-- tag whose record must be written before that restart (R153). -/
  restartTag : Option Nat
  /-- what left the device, newest first (log entry 3). -/
  out : List Out
  /-- bytes that the last register read answered (log entry 3). -/
  lastRead : List Nat
  /-- firmware status mirror from 0x8000 as last copied, zeros where not listed (R410). -/
  mirror : List Nat
  /-- SEQ of the mirror (R411). -/
  mirSeq : Nat
  /-- uptime second of the last copy (R410). -/
  mirSec : Option Nat
  /-- MDT_EXPORT commands that run (R156). -/
  exports : List Export
  /-- free values drawn so far (log entry 5). -/
  draw : Nat
  /-- channels OUT0-OUT47 (R220). -/
  chans : Tab Chan
  /-- power dies PD0-PD5 (R270). -/
  dies : Tab Die
  /-- channel pairs (R224). -/
  prs : Tab Pair
  /-- objects OBJ0-OBJ255 (R165). -/
  objs : Tab Obj
  /-- render contexts 0-12,287 (R172). -/
  ctxs : Tab Ctx
  /-- shaping filters 0-1023 (R171). -/
  shapes : Tab Shape
  /-- loudspeaker positions, origin where not listed (R176). -/
  geo : List Point
  /-- render totals and budget (R183). -/
  rend : Rend
  /-- scene streams TD0-TD3 (R189). -/
  streams : Tab Stream
  /-- TDM ports TDM0-TDM3 (R304). -/
  ports : Tab TPort
  /-- microphones 0-31 (R319). -/
  mics : Tab Mic
  /-- PDM inputs (R319). -/
  pdm : Pdm
  /-- decimation chains 0-127 (R227). -/
  chains : Tab Chain
  /-- carrier period in modulator steps (R209). -/
  period : Nat
  /-- rail budget in 0.1 A (R257). -/
  railBudget : Nat
  /-- measurement ring, quiet windows and acoustic queue (R295). -/
  acou : Acou
deriving DecidableEq, Repr

/-- The device after reset. -/
def Dev.reset : Dev :=
  { sys := Sys.reset
    tb := Tb.reset
    doms := []
    paths := []
    fns := []
    trn := Trn.reset
    link := Link.reset
    rings := []
    mbxs := []
    tags := []
    accepts := 0
    dones := 0
    cmdLast := 4095
    fetched := []
    tless := []
    nvm := Nvm.reset
    mdt := Mdt.reset
    fz := Fz.reset
    tw := Tw.reset
    emg := Emg.reset
    sbe := []
    faults := []
    nonce := none
    restartReq := none
    restartTag := none
    out := []
    lastRead := []
    mirror := []
    mirSeq := 0
    mirSec := none
    exports := []
    draw := 0
    chans := []
    dies := []
    prs := []
    objs := []
    ctxs := []
    shapes := []
    geo := []
    rend := Rend.reset
    streams := []
    ports := []
    mics := []
    pdm := Pdm.reset
    chains := []
    period := 1600
    railBudget := 250
    acou := Acou.reset }

/-- The state: the commands waiting, first in first out; the lock file (R104); the sideband window (R102) as cells
in rising order of offset, zero where not listed; and the rest of the device. -/
structure State where
  pending : List Instr
  locks : Locks
  win : List Host.Cell
  dev : Dev
deriving DecidableEq, Repr

/-- The machine right after the power-on reset with PERST_N released (R370, R373; log entry 4). -/
def State.reset : State :=
  { pending := [], locks := Locks.reset, win := [], dev := Dev.reset }

/-- Reasons to stop with a fault. No rule of the specification stops the block, so no meaning raises one; the
constructor is kept for a sender that does not exist in the specification (safe: nothing answers it). -/
inductive Fault where
  | noSuchSender
deriving DecidableEq, Repr

/-- Reasons to refuse. `notModelled` is raised only by an arm of `exec` whose command has no meaning yet (safe). -/
inductive Refusal where
  | notModelled (mnemonic : String)
deriving DecidableEq, Repr

end Sys2Proof.Machine
end

