-- ==== Sys2Proof/Machine/Ops.lean ====
section
/-! DEFINITION. The named operations over the state: readers and writers of the numbered resources, line-time
arithmetic (R27, R28), MSI-X messages (R48, R408), ring publication (R73, R74), events (R124, R18), the Mordant
queue (R353), fault records (R57) and completion records (R78, R114). -/

namespace Sys2Proof.Machine

/-! ### Readers and writers of the numbered resources -/

/-- Timebase domain TDn. -/
def Dev.dom (d : Dev) (n : Nat) : Dom := Tab.get Dom.reset d.doms n
/-- Register path: 0 PF0, 1 PF1, 2 two-wire. -/
def Dev.path (d : Dev) (n : Nat) : PathR := Tab.get PathR.reset d.paths n
/-- Function PFn. -/
def Dev.fn (d : Dev) (n : Nat) : Fn := Tab.get Fn.reset d.fns n
/-- Ring n. -/
def Dev.ring (d : Dev) (n : Nat) : Ring := Tab.get Ring.reset d.rings n
/-- Mailbox channel MBn. -/
def Dev.mbx (d : Dev) (n : Nat) : Mbx := Tab.get Mbx.reset d.mbxs n
/-- Command tag n. -/
def Dev.tag (d : Dev) (n : Nat) : Tag := Tab.get Tag.reset d.tags n

/-- Replace domain n. -/
def Dev.setDom (d : Dev) (n : Nat) (v : Dom) : Dev := { d with doms := Tab.set d.doms n v }
/-- Replace path n. -/
def Dev.setPath (d : Dev) (n : Nat) (v : PathR) : Dev := { d with paths := Tab.set d.paths n v }
/-- Replace function n. -/
def Dev.setFn (d : Dev) (n : Nat) (v : Fn) : Dev := { d with fns := Tab.set d.fns n v }
/-- Replace ring n. -/
def Dev.setRing (d : Dev) (n : Nat) (v : Ring) : Dev := { d with rings := Tab.set d.rings n v }
/-- Replace channel n's mailbox. -/
def Dev.setMbx (d : Dev) (n : Nat) (v : Mbx) : Dev := { d with mbxs := Tab.set d.mbxs n v }
/-- Replace tag n. -/
def Dev.setTag (d : Dev) (n : Nat) (v : Tag) : Dev := { d with tags := Tab.set d.tags n v }

/-- Change domain n. -/
def Dev.updDom (d : Dev) (n : Nat) (f : Dom → Dom) : Dev := d.setDom n (f (d.dom n))
/-- Change path n. -/
def Dev.updPath (d : Dev) (n : Nat) (f : PathR → PathR) : Dev := d.setPath n (f (d.path n))
/-- Change function n. -/
def Dev.updFn (d : Dev) (n : Nat) (f : Fn → Fn) : Dev := d.setFn n (f (d.fn n))
/-- Change ring n. -/
def Dev.updRing (d : Dev) (n : Nat) (f : Ring → Ring) : Dev := d.setRing n (f (d.ring n))
/-- Change mailbox channel n. -/
def Dev.updMbx (d : Dev) (n : Nat) (f : Mbx → Mbx) : Dev := d.setMbx n (f (d.mbx n))
/-- Change tag n. -/
def Dev.updTag (d : Dev) (n : Nat) (f : Tag → Tag) : Dev := d.setTag n (f (d.tag n))

/-! ### Readers and writers of the audio resources -/

/-- Channel OUTn. -/
def Dev.chan (d : Dev) (n : Nat) : Chan := Tab.get Chan.reset d.chans n
/-- Replace it. -/
def Dev.setChan (d : Dev) (n : Nat) (v : Chan) : Dev := { d with chans := Tab.set d.chans n v }
/-- Change it. -/
def Dev.updChan (d : Dev) (n : Nat) (f : Chan → Chan) : Dev := d.setChan n (f (d.chan n))
/-- Power die PDn. -/
def Dev.die (d : Dev) (n : Nat) : Die := Tab.get Die.reset d.dies n
/-- Replace it. -/
def Dev.setDie (d : Dev) (n : Nat) (v : Die) : Dev := { d with dies := Tab.set d.dies n v }
/-- Change it. -/
def Dev.updDie (d : Dev) (n : Nat) (f : Die → Die) : Dev := d.setDie n (f (d.die n))
/-- Channel pair n. -/
def Dev.pr (d : Dev) (n : Nat) : Pair := Tab.get Pair.reset d.prs n
/-- Replace it. -/
def Dev.setPr (d : Dev) (n : Nat) (v : Pair) : Dev := { d with prs := Tab.set d.prs n v }
/-- Change it. -/
def Dev.updPr (d : Dev) (n : Nat) (f : Pair → Pair) : Dev := d.setPr n (f (d.pr n))
/-- Object OBJn. -/
def Dev.obj (d : Dev) (n : Nat) : Obj := Tab.get Obj.reset d.objs n
/-- Replace it. -/
def Dev.setObj (d : Dev) (n : Nat) (v : Obj) : Dev := { d with objs := Tab.set d.objs n v }
/-- Change it. -/
def Dev.updObj (d : Dev) (n : Nat) (f : Obj → Obj) : Dev := d.setObj n (f (d.obj n))
/-- Render context n. -/
def Dev.ctx (d : Dev) (n : Nat) : Ctx := Tab.get Ctx.reset d.ctxs n
/-- Replace it. -/
def Dev.setCtx (d : Dev) (n : Nat) (v : Ctx) : Dev := { d with ctxs := Tab.set d.ctxs n v }
/-- Change it. -/
def Dev.updCtx (d : Dev) (n : Nat) (f : Ctx → Ctx) : Dev := d.setCtx n (f (d.ctx n))
/-- Shaping filter n. -/
def Dev.shape (d : Dev) (n : Nat) : Shape := Tab.get Shape.reset d.shapes n
/-- Replace it. -/
def Dev.setShape (d : Dev) (n : Nat) (v : Shape) : Dev := { d with shapes := Tab.set d.shapes n v }
/-- Change it. -/
def Dev.updShape (d : Dev) (n : Nat) (f : Shape → Shape) : Dev := d.setShape n (f (d.shape n))
/-- Scene stream of TDn. -/
def Dev.stream (d : Dev) (n : Nat) : Stream := Tab.get Stream.reset d.streams n
/-- Replace it. -/
def Dev.setStream (d : Dev) (n : Nat) (v : Stream) : Dev := { d with streams := Tab.set d.streams n v }
/-- Change it. -/
def Dev.updStream (d : Dev) (n : Nat) (f : Stream → Stream) : Dev := d.setStream n (f (d.stream n))
/-- TDM port n. -/
def Dev.port (d : Dev) (n : Nat) : TPort := Tab.get TPort.reset d.ports n
/-- Replace it. -/
def Dev.setPort (d : Dev) (n : Nat) (v : TPort) : Dev := { d with ports := Tab.set d.ports n v }
/-- Change it. -/
def Dev.updPort (d : Dev) (n : Nat) (f : TPort → TPort) : Dev := d.setPort n (f (d.port n))
/-- Microphone n. -/
def Dev.mic (d : Dev) (n : Nat) : Mic := Tab.get Mic.reset d.mics n
/-- Replace it. -/
def Dev.setMic (d : Dev) (n : Nat) (v : Mic) : Dev := { d with mics := Tab.set d.mics n v }
/-- Change it. -/
def Dev.updMic (d : Dev) (n : Nat) (f : Mic → Mic) : Dev := d.setMic n (f (d.mic n))
/-- Decimation chain DCn. -/
def Dev.chain (d : Dev) (n : Nat) : Chain := Tab.get Chain.reset d.chains n
/-- Replace it. -/
def Dev.setChain (d : Dev) (n : Nat) (v : Chain) : Dev := { d with chains := Tab.set d.chains n v }
/-- Change it. -/
def Dev.updChain (d : Dev) (n : Nat) (f : Chain → Chain) : Dev := d.setChain n (f (d.chain n))

/-- The function of a sender: PF1's is 1, others' 0. -/
def fnOf (sender : Nat) : Nat := if sender = 3 then 1 else 0

/-- Tags of a sender (R113). -/
def ownTag (sender t : Nat) : Bool :=
  if sender = 2 then decide (t < 400) else if sender = 3 then decide (400 ≤ t ∧ t < 496) else decide (496 ≤ t ∧ t < 512)

/-- Power die of a channel: eight channels each (R11). -/
def dieOf (ch : Nat) : Nat := ch / 8

/-- Apply a change for each number of a list, in its order. -/
def Dev.forEach (d : Dev) (l : List Nat) (f : Nat → Dev → Dev) : Dev := l.foldl (fun d n => f n d) d

/-- The reply a register read gives. -/
def Dev.answer (d : Dev) (bytes : List Nat) : Dev := { d with lastRead := bytes }

/-- What leaves goes over the host link. -/
def Out.onLink : Out → Bool
  | .tap _ | .tdm .. => false
  | _ => true

/-- Something leaves the device (log entry 3); traffic on the host link ends ASPM L1 (R47). -/
def Dev.emit (d : Dev) (o : Out) : Dev :=
  { d with out := o :: d.out,
           link := if o.onLink then { d.link with l1 := false, lastReq := d.sys.uptime } else d.link }

/-- The next free value of the kind `f` draws, and the counter moved on (log entry 5). -/
def Dev.drawn {α : Type} (d : Dev) (f : Nat → α) : α × Dev := (f d.draw, { d with draw := d.draw + 1 })

/-- The engines run: neither frozen (R360), nor in power-on reset (R369), nor held by PERST_N (R370). -/
def Dev.live (d : Dev) : Bool := !d.fz.frozen && !d.sys.por && !d.sys.perst

/-- A step on everything but queue, locks and window. -/
def State.onDev (s : State) (f : Dev → Dev) : State := { s with dev := f s.dev }

/-- The same while the engines run; else nothing changes (log entry 9). -/
def State.onLive (s : State) (f : Dev → Dev) : State := if s.dev.live then s.onDev f else s

/-! ### Line-time and sample counter (R27, R28) -/

/-- Samples N per K frames of a rate code, doubled in a double-rate domain. -/
def rateNK (rate : Nat) (dbl : Bool) : Nat × Nat :=
  let nk : Nat × Nat := match rate with
    | 0 => (960, 1) | 1 => (4004, 5) | 2 => (800, 1) | 3 => (480, 1) | 4 => (2002, 5) | _ => (400, 1)
  if dbl then (2 * nk.1, nk.2) else nk

/-- Frame-count modulus M (R23). -/
def rateMod (rate : Nat) : Nat := if rate = 1 ∨ rate = 4 then 0xFFFFFFF0 else 2 ^ 32

/-- Frames per second as a fraction. -/
def rateFps (rate : Nat) : Nat × Nat :=
  match rate with
  | 0 => (50, 1) | 1 => (60000, 1001) | 2 => (60, 1) | 3 => (100, 1) | 4 => (120000, 1001) | _ => (120, 1)

/-- Samples per cycle of the frame count. -/
def Dom.sM (m : Dom) : Nat := let nk := rateNK m.rate m.dbl; rateMod m.rate * nk.1 / nk.2

/-- Block length of the domain (R28). -/
def Dom.blk (m : Dom) : Nat := if m.dbl then 64 else 32

/-- Sample rate in Hz. -/
def Dom.fs (m : Dom) : Nat := if m.dbl then 96000 else 48000

/-- Units of 1/65,536 line in one frame. -/
def Dom.perFrame (m : Dom) : Nat := m.lpf * 65536

/-- Cadence index of the first sample at or after position `p` plus the fraction `sub` (R27). -/
def Dom.cAt (m : Dom) (p : Nat) (sub : Rat) : Nat :=
  let nk := rateNK m.rate m.dbl
  let den := nk.2 * m.perFrame
  let num : Rat := (nk.1 : Rat) * ((p : Rat) + sub)
  (Rat.ceil (num / (den : Rat))).toNat

/-- Position at which sample `c` of the cycle is presented, truncated to 1/65,536 line (R27). -/
def Dom.posOf (m : Dom) (c : Nat) : Nat := let nk := rateNK m.rate m.dbl; c * nk.2 * m.perFrame / nk.1

/-- A position written as a line-time word: frame, line, fraction (R9). -/
def Dom.ltWord (m : Dom) (p : Nat) : Nat :=
  let f := p / m.perFrame % rateMod m.rate
  let r := p % m.perFrame
  f * 2 ^ 32 + r / 65536 * 2 ^ 16 + r % 65536

/-- The position a line-time word names. -/
def Dom.posOfLt (m : Dom) (lt : Nat) : Nat :=
  lt / 2 ^ 32 % 2 ^ 32 * m.perFrame + lt / 2 ^ 16 % 2 ^ 16 * 65536 + lt % 2 ^ 16

/-- Position one offset of `o` lines on, within the cycle. -/
def Dom.shift (m : Dom) (p : Nat) (o : Int) : Nat :=
  let cyc : Int := (rateMod m.rate * m.perFrame : Nat)
  (((p : Int) + o * 65536) % cyc).toNat

/-- TD1 of a pair uses TD0's clock (R31): the domain whose DPLL and SC count. -/
def Dev.clk (d : Dev) (n : Nat) : Nat := if d.tb.pair && n = 1 then 0 else n

/-- The domain's present position: TD1 of a pair is TD0 plus O lines. -/
def Dev.pos (d : Dev) (n : Nat) : Nat :=
  let m := d.dom (d.clk n)
  if d.tb.pair && n = 1 then m.shift m.pos d.tb.offset else m.pos

/-- Present line-time; zero while the domain is DISABLED (R404). -/
def Dev.ltNow (d : Dev) (n : Nat) : Nat :=
  let m := d.dom (d.clk n)
  if (d.dom n).st = .disabled then 0 else m.ltWord (d.pos n)

/-- Present SC; it stands while the domain is DISABLED (R418). -/
def Dev.scNow (d : Dev) (n : Nat) : Nat :=
  let m := d.dom (d.clk n)
  if (d.dom n).st = .disabled then m.scHold else m.w * m.sM + m.cAt m.pos m.sub

/-- Line-time of sample `sc` of domain `n` as reported (R27). -/
def Dev.ltOfSc (d : Dev) (n sc : Nat) : Nat :=
  let m := d.dom (d.clk n)
  let p := m.posOf (sc % m.sM)
  if d.tb.pair && n = 1 then m.ltWord (m.shift p d.tb.offset) else m.ltWord p

/-- Line-time of the clock-master domain. -/
def Dev.cmLt (d : Dev) : Nat := d.ltNow d.tb.master

/-- SC of the clock-master domain, zero while it is DISABLED (R404). -/
def Dev.cmSc (d : Dev) : Nat := if (d.dom d.tb.master).st = .disabled then 0 else d.scNow d.tb.master

/-- First block boundary of the domain at or after a sample (R34). -/
def Dom.ceilBlk (m : Dom) (sc : Nat) : Nat := (sc + m.blk - 1) / m.blk * m.blk

/-- Frames by which a stamp lies ahead of the current frame, modulo M: less than M/2 is the future (R35). -/
def Dom.isFuture (m : Dom) (now stamp : Nat) : Bool :=
  let md := rateMod m.rate
  let cyc := md * m.perFrame
  let ahead := (stamp + cyc - now % cyc) % cyc
  decide (ahead < cyc / 2)

/-- SC of the first sample at or after a stamped position, seen from the present position and cycle count. -/
def Dom.scOfStamp (m : Dom) (stamp : Nat) : Nat :=
  let cyc := rateMod m.rate * m.perFrame
  let wrapped := stamp < m.pos && m.isFuture m.pos stamp
  (if wrapped then m.w + 1 else m.w) * m.sM + m.cAt (stamp % cyc) 0

/-! ### MSI-X and the interrupt cause block (R48, R407, R408, R415) -/

/-- Word `k` of the MSI-X table; an unwritten vector control word has its mask bit set, as PCI Express resets it. -/
def Fn.msixWord (f : Fn) (k : Nat) : Nat := Tab.get (if k % 4 = 3 then 1 else 0) f.msix k

/-- The vector is masked, by itself or by the function. -/
def Fn.masked (f : Fn) (v : Nat) : Bool := f.fmask || bit (f.msixWord (4 * v + 3)) 0

/-- Send, or hold pending, one MSI-X message (R408). With the link down none is sent and none held (R66). -/
def Dev.msix (d : Dev) (fn v : Nat) : Dev :=
  let f := d.fn fn
  if !d.link.up || !f.msixEn then d
  else if f.masked v then d.setFn fn { f with pba := f.pba ||| 2 ^ v }
  else d.emit (.msix fn v)

/-- INT_CAUSE as read: the stored causes with RING and MBX computed (R407). -/
def Fn.causes (f : Fn) : Nat :=
  f.cause + (if f.intRing.any (fun p => p.2 ≠ 0) then 2 else 0) + (if f.intMbx ≠ 0 then 4 else 0)

/-- Enabled causes. -/
def Fn.pendingCauses (f : Fn) : Nat := f.causes &&& f.mask

/-- Change a function's cause block; a message goes when the enabled causes turn from zero to non-zero (R408). -/
def Dev.updCause (d : Dev) (fn : Nat) (g : Fn → Fn) : Dev :=
  let before := (d.fn fn).pendingCauses
  let d' := d.updFn fn g
  if before = 0 && (d'.fn fn).pendingCauses ≠ 0 then d'.msix fn 0 else d'

/-- Set a stored cause bit of INT_CAUSE. -/
def Dev.setCause (d : Dev) (fn k : Nat) : Dev := d.updCause fn (fun f => { f with cause := f.cause ||| 2 ^ k })

/-- A ring's message: its vector, or the cause block for vector 0 (R48, R74). -/
def Dev.ringMsg (d : Dev) (k : Nat) : Dev :=
  let r := d.ring k
  if r.vector ≠ 0 then d.msix r.owner r.vector
  else d.updCause r.owner (fun f =>
    { f with intRing := Tab.set f.intRing (k / 32) (Tab.get 0 f.intRing (k / 32) ||| 2 ^ (k % 32)) })

/-- The function that owns a mailbox channel (R87). -/
def mbxFn (ch : Nat) : Nat := if ch < 8 then 1 else 0

/-- A host port's message on a mailbox channel: its vector, or the cause block for vector 0 (R48, R93). -/
def Dev.mbxMsg (d : Dev) (ch : Nat) : Dev :=
  let v := (d.mbx ch).vec
  if v ≠ 0 then d.msix (mbxFn ch) v
  else d.updCause (mbxFn ch) (fun f => { f with intMbx := f.intMbx ||| 2 ^ ch })

/-! ### Rings (R69–R74) -/

/-- Entries in a ring. -/
def Ring.size (r : Ring) : Nat := 2 ^ r.log2n
/-- Entries published and not consumed (R71). -/
def Ring.occ (r : Ring) : Nat := (r.tail + 2 ^ 32 - r.head) % 2 ^ 32
/-- Types whose producer is the host (R69). -/
def Ring.hostProduced (r : Ring) : Bool := r.type = 1 || r.type = 3 || r.type = 5 || r.type = 7
/-- Types of the ISOCHRONOUS class (R69). -/
def Ring.iso (r : Ring) : Bool := decide (1 ≤ r.type ∧ r.type ≤ 6)
/-- IOVA of the entry slot of an index. -/
def Ring.slotAddr (r : Ring) (idx : Nat) : Nat := r.base + idx % r.size * r.esize
/-- Some byte of an access lies on a page that is barred for the ring (R56). -/
def Ring.barredAt (r : Ring) (iova len : Nat) : Bool :=
  r.barred.any (fun p => decide (p * 4096 < iova + max 1 len ∧ iova < p * 4096 + 4096))
/-- IOVA of the index block (R70). -/
def Ring.idxAddr (r : Ring) : Nat := r.base + r.size * r.esize
/-- The device's own index (R70). -/
def Ring.devIdx (r : Ring) : Nat := if r.hostProduced then r.head else r.tail
/-- The ring is fenced off from DMA: its owner's domain is FENCED (R58). -/
def Dev.ringFenced (d : Dev) (k : Nat) : Bool := (d.fn (d.ring k).owner).fenced
/-- DMA for a ring can be issued now. -/
def Dev.ringOpen (d : Dev) (k : Nat) : Bool :=
  d.link.up && (d.ring k).st = .running && !d.ringFenced k

/-- The watermark condition holds now (R74). -/
def Ring.atMark (r : Ring) : Bool :=
  r.wmark ≠ 0 && (if r.hostProduced then decide (r.occ ≤ r.wmark) else decide (r.wmark ≤ r.occ))

/-- Room for one more entry on a device-produced ring. -/
def Ring.room (r : Ring) : Bool := decide (r.occ < r.size)

/-- Some entry carries audio: its writes are ISOCHRONOUS data; completion, event and fault records are never bulk (R46). -/
def Ring.bulk (r : Ring) : Bool := !(r.type = 8 || r.type = 9 || r.type = 11)

/-- The lowest-numbered RUNNING ring of a type owned by a function (R57, R69). -/
def Dev.firstRing (d : Dev) (fn type : Nat) : Option Nat :=
  (d.rings.find? (fun p => p.2.type = type && p.2.owner = fn && p.2.st = .running)).map (·.1)

/-- The lowest-numbered ring of a type of a function that is not DISABLED: it shows the counts of records held or lost
(R85). -/
def Dev.typeRing (d : Dev) (fn type : Nat) : Option Nat :=
  (d.rings.find? (fun p => p.2.type = type && p.2.owner = fn && p.2.st ≠ .disabled)).map (·.1)

/-- Count a record held (R85, CNT_B) on the ring of a type of a function. -/
def Dev.countHeld (d : Dev) (fn type : Nat) : Dev :=
  match d.typeRing fn type with
  | some k => d.updRing k (fun r => { r with cntB := satInc 65535 r.cntB })
  | none => d

/-- Count a record lost (R85, CNT_A). -/
def Dev.countLost (d : Dev) (fn type : Nat) : Dev :=
  match d.typeRing fn type with
  | some k => d.updRing k (fun r => { r with cntA := satInc 65535 r.cntA })
  | none => d

/-! ### Translation as far as the cache knows (R50–R52) -/

/-- What the translation of an address finds before any walk. -/
inductive Look where
  | pass
  | hit (e : Nat) (level : Nat)
  | fault (code level : Nat)
  | miss
deriving DecidableEq, Repr

/-- Bytes a final entry maps (R51): 2 MiB block, 64 KiB region or 4 KiB page. -/
def finalSize (e level : Nat) : Nat := if level = 1 then 2097152 else if bit e 4 then 65536 else 4096

/-- Bus address that a final entry gives an IOVA (R51). -/
def busOf (e level iova : Nat) : Nat :=
  let sz := finalSize e level
  bits e 51 12 * 4096 / sz * sz + iova % sz

/-- The cached translation of an address. -/
def Trn.find (t : Trn) (dom iova : Nat) : Option TlbE :=
  t.tlb.find? (fun c => c.dom = dom && decide (c.base ≤ iova ∧ iova < c.base + c.size))

/-- The domain is switched on: TRN_CTRL.EN, or TRN_ICTRL.EN for the internal domain (R50). -/
def Dev.trnOn (d : Dev) (dom : Nat) : Bool := if dom = 2 then (d.fn 1).ien else (d.fn dom).trnEn

/-- Look an address up (R50–R52): the internal domain faults with NOT_VALID while it is off; range; pass-through; the
cache, whose entry is checked for the access. -/
def Dev.look (d : Dev) (dom iova : Nat) (write : Bool) : Look :=
  if dom = 2 && !d.trnOn 2 then .fault 1 0
  else if 2 ^ 38 ≤ iova then .fault 4 0
  else if !d.trnOn dom then .pass
  else match d.trn.find dom iova with
    | some c => if (write && !bit c.entry 3) || (!write && !bit c.entry 2) then .fault 2 c.level
                else .hit c.entry c.level
    | none => .miss

/-- Bus address of an access, where no walk is needed to know it. -/
def Look.bus (l : Look) (iova : Nat) : Option Nat :=
  match l with
  | .pass => some iova
  | .hit e lv => some (busOf e lv iova)
  | _ => none

/-- No Snoop is permitted for an access: by the page entry (R51); a page whose entry a walk outside has still to read
decides there. -/
def Look.ns (l : Look) : Bool :=
  match l with
  | .hit e _ => bit e 5
  | .miss => true
  | _ => false

/-- The address faults as far as the cache knows: code and level. -/
def Dev.lookFault (d : Dev) (dom iova : Nat) (write : Bool) : Option (Nat × Nat) :=
  match d.look dom iova write with
  | .fault c l => some (c, l)
  | _ => none

/-- The first address of an access whose page faults as far as the cache knows, with code and level. -/
def Dev.rangeFault (d : Dev) (dom iova len : Nat) (write : Bool) : Option (Nat × Nat × Nat) :=
  ((List.range ((iova % 4096 + max 1 len + 4095) / 4096)).filterMap (fun j =>
    let a := if j = 0 then iova else (iova / 4096 + j) * 4096
    (d.lookFault dom a write).map (fun f => (a, f.1, f.2)))).head?

/-- One write request leaves, translated in domain `dom`: Relaxed Ordering only on bulk data and where it is enabled, No
Snoop only on ISOCHRONOUS data and where both the page and Device Control allow it (R46). -/
def Dev.dma1 (d : Dev) (dom iova : Nat) (bulk iso ep : Bool) (bytes : List Nat) : Dev :=
  let fn := min 1 dom
  let f := d.fn fn
  let l := d.look dom iova true
  d.emit (.write fn iova (l.bus iova) { ro := bulk && f.ro, ns := iso && f.ns && l.ns, ep := ep, td := f.ecrcGen } bytes)

/-- Bytes cut at every multiple of `unit`, each piece with its address (R42, R59). -/
def cutAt (unit : Nat) : Nat → Nat → List Nat → List (Nat × List Nat)
  | 0, _, _ => []
  | _, _, [] => []
  | n + 1, a, b => (a, b.take (unit - a % unit)) :: cutAt unit n (a + (unit - a % unit)) (b.drop (unit - a % unit))

/-- A transfer to host memory leaves in requests that carry at most the Max Payload Size and cross no 256-byte boundary
(R42, R59). -/
def Dev.dma (d : Dev) (dom iova : Nat) (bulk iso ep : Bool) (bytes : List Nat) : Dev :=
  let unit := if (d.fn (min 1 dom)).mps = 0 then 128 else 256
  (cutAt unit (bytes.length / unit + 2) iova bytes).foldl (fun d p => d.dma1 dom p.1 bulk iso ep p.2) d

/-- Staged data for an address has met a memory error: the write leaves with EP set (R64). -/
def Dev.epAt (d : Dev) (st iova : Nat) : Bool := d.trn.poison.contains (st, iova)
/-- That mark is used up. -/
def Dev.epDone (d : Dev) (st iova : Nat) : Dev :=
  { d with trn := { d.trn with poison := d.trn.poison.filter (fun p => p ≠ (st, iova)) } }

/-! ### Streams (R54) -/

/-- Function that owns a stream (R54): a ring's owner, a tag's sender, a channel's owner; PF1 for the internal one. -/
def Dev.streamFn (d : Dev) (st : Nat) : Nat :=
  if st < 0x1000 then (d.ring st).owner
  else if st < 0x1200 then (if (d.tag (st - 0x1000)).sender = 3 then 1 else 0)
  else if st < 0x1240 then mbxFn (st - 0x1200)
  else 1

/-- Translation domain of a stream (R50). -/
def Dev.streamDom (d : Dev) (st : Nat) : Nat := if st = 0x1300 then 2 else d.streamFn st

/-- The domain of a stream is fenced: its transfers are dropped without records (R58). -/
def Dev.streamFenced (d : Dev) (st : Nat) : Bool :=
  if st = 0x1300 then (d.fn 1).ifenced else (d.fn (d.streamFn st)).fenced

/-- The stream is stalled. -/
def Dev.stalled (d : Dev) (st : Nat) : Bool := d.trn.stalls.any (·.stream = st)

/-- A ring's entry is written and TAIL moves; the index write follows it (R46, R73); an ISOCHRONOUS ring publishes at its
block boundary. The caller has looked the addresses up. -/
def Dev.putRaw (d : Dev) (k : Nat) (bytes : List Nat) : Dev :=
  let r := d.ring k
  let a := r.slotAddr r.tail
  let d := (d.dma1 r.owner a r.bulk r.iso (d.epAt k a) bytes).epDone k a
  let r := { r with tail := (r.tail + 1) % 2 ^ 32 }
  let mark := r.armed && r.atMark
  if r.iso then d.setRing k { r with armed := r.armed && !mark, wmDue := r.wmDue || mark }
  else
    let d := d.setRing k { r with armed := r.armed && !mark, didx := r.devIdx, pubSc := 0 }
    let d := d.dma1 r.owner r.idxAddr false false false (le 8 r.devIdx ++ le 8 0)
    if mark then d.ringMsg k else d

/-- A write of ring `k` would fault, to one of some places or to its index block: address, length, code and level of the
first. -/
def Dev.putFault (d : Dev) (k : Nat) (l : List (Nat × Nat)) : Option (Nat × Nat × Nat × Nat) :=
  let r := d.ring k
  ((l ++ [(r.idxAddr, 16)]).filterMap (fun (p : Nat × Nat) =>
    (d.rangeFault r.owner p.1 p.2 true).map (fun (f : Nat × Nat × Nat) => (f.1, p.2, f.2.1, f.2.2)))).head?

/-! ### Fault records and stalls (R53, R57) -/

/-- FLAGS of a translation record (R57). -/
def trnFlags (stalled write : Bool) (code level : Nat) (walk : Bool) : Nat :=
  b2n stalled + 2 * b2n write + 4 * b2n walk + (if code = 4 then 0 else 8 * level)

/-- A stream stalls (R53): a ring is STALLED, reads of the stream from the faulting one on are discarded, to be issued
again, and TRN_STALL is set. -/
def Dev.stallMark (d : Dev) (st iova len : Nat) (write : Bool) : Dev :=
  let fn := d.streamFn st
  let e : Stall := { stream := st, fn := fn, dom := d.streamDom st, iova := iova, len := len, write := write,
                     since := d.sys.uptime }
  let upto := ((d.trn.reads.find? (fun x => x.stream = st && x.iova = iova && !x.taken && !write)).map (·.no)).getD d.trn.readNo
  let d := { d with trn := { d.trn with stalls := d.trn.stalls ++ [e],
                                        reads := d.trn.reads.filter (fun x => x.stream ≠ st || x.taken || decide (x.no < upto)) } }
  let d := if st < 0x1000 && (d.ring st).st = .running then d.updRing st (fun r => { r with st := .stalled }) else d
  d.setCause fn 5

/-- A fault record as bytes, its SEQ taken and its copy in TRN_LAST (R57). -/
def Dev.fltNote (d : Dev) (fn kind code stream dom flags iova detail : Nat) : List Nat × Dev :=
  let f := d.fn fn
  let bytes := le 1 kind ++ le 1 code ++ le 2 stream ++ le 1 dom ++ le 1 flags
    ++ le 2 f.fltSeq ++ le 8 iova ++ le 8 d.cmLt ++ le 4 detail ++ le 4 0
  let last := [ofLe (bytes.take 8), ofLe ((bytes.drop 8).take 8), ofLe ((bytes.drop 16).take 8),
    ofLe (bytes.drop 24)]
  (bytes, d.setFn fn { f with fltSeq := (f.fltSeq + 1) % 65536, last := last })

/-- A fault record that cannot be written: counted under FLT_LOST, with the TRN_FAULT cause (R57, R85). -/
def Dev.fltLose (d : Dev) (fn : Nat) : Dev :=
  ((d.updFn fn (fun f => { f with fltLost := satInc 65535 f.fltLost })).countLost fn 11).setCause fn 0

/-- The bytes of a fault record go to the function's FLT ring, or the record is lost. Where the FLT ring's own page faults,
its stream stalls and both records are lost (R57, R67). -/
def Dev.fltPut (d : Dev) (fn : Nat) (bytes : List Nat) : Dev :=
  match d.firstRing fn 11 with
  | some k =>
    if d.ringOpen k && (d.ring k).room then
      match d.putFault k [((d.ring k).slotAddr (d.ring k).tail, 32)] with
      | none => d.putRaw k bytes
      | some (a, len, c, l) =>
        let d := (d.fltLose fn).stallMark k a len true
        ((d.fltNote fn 1 c k fn (trnFlags true true c l false) a len).2).fltLose fn
    else d.fltLose fn
  | none => d.fltLose fn

/-- Write a fault record to the function's FLT ring and TRN_LAST, or count it under FLT_LOST with the TRN_FAULT cause
(R57). -/
def Dev.fltRecord (d : Dev) (fn kind code stream dom flags iova detail : Nat) : Dev :=
  let x := d.fltNote fn kind code stream dom flags iova detail
  x.2.fltPut fn x.1

/-- A translation fault of a stream that waits for RESUME or ABORT (R53): it stalls, with one record. -/
def Dev.stallOn (d : Dev) (st iova len code level : Nat) (write walk : Bool) : Dev :=
  (d.stallMark st iova len write).fltRecord (d.streamFn st) 1 code st (d.streamDom st)
    (trnFlags true write code level walk) iova len

/-! ### Writing rings (R70, R73, R74) -/

/-- Whether ring `k` can be written now at some places; where the cache knows that a write faults, the ring stalls
(R53). A DRAINING ring still writes what is staged (R83). -/
def Dev.reachAt (d : Dev) (k : Nat) (at_ : List (Nat × Nat)) : Dev × Bool :=
  let st := (d.ring k).st
  if !d.link.up || d.ringFenced k || !(st = .running || st = .draining) || d.stalled k then (d, false)
  else match d.putFault k at_ with
    | none => (d, true)
    | some (a, n, c, l) => (d.stallOn k a n c l true false, false)

/-- The same for the next entry of the ring. -/
def Dev.reach (d : Dev) (k len : Nat) : Dev × Bool := d.reachAt k [((d.ring k).slotAddr (d.ring k).tail, len)]

/-- Publish DIDX: one 16-byte write of index and SC, and the watermark message that it was held for (R70, R73, R74). A
page that refuses the write stalls the ring. -/
def Dev.publish (d : Dev) (k sc : Nat) : Dev :=
  let r := d.ring k
  let sc := if r.iso then sc else 0
  if !d.link.up || d.ringFenced k then d.setRing k { r with didx := r.devIdx, pubSc := sc }
  else match d.lookFault r.owner r.idxAddr true with
    | some f => if d.stalled k then d else d.stallOn k r.idxAddr 16 f.1 f.2 true false
    | none =>
      let d := d.setRing k { r with didx := r.devIdx, pubSc := sc, wmDue := false }
      let d := d.dma1 r.owner r.idxAddr false false false (le 8 r.devIdx ++ le 8 sc)
      if r.wmDue then d.ringMsg k else d

/-- After a movement of the device's index: when the watermark is reached, one message per arming follows the next
publication (R74). -/
def Dev.watermark (d : Dev) (k : Nat) : Dev :=
  let r := d.ring k
  if r.armed && r.atMark then d.setRing k { r with armed := false, wmDue := true } else d

/-- The device's index has moved: the watermark, and, but for an ISOCHRONOUS ring, which publishes at its block boundary,
the publication at once (R73, R74). -/
def Dev.moved (d : Dev) (k : Nat) : Dev :=
  let d := d.watermark k
  if (d.ring k).iso then d else d.publish k 0

/-- Write one entry of a device-produced ring that can be reached, and move TAIL. -/
def Dev.putEntry (d : Dev) (k : Nat) (bytes : List Nat) : Dev := d.putRaw k bytes

/-! ### The Mordant queue (R353) -/

/-- Put a record into the fault supervisor's queue: suppressed after ten of its KIND and SUBJECT within a second
unless SEV 3, lost and counted when the queue holds 16 (R353); none is written while frozen (R360). -/
def Dev.mordant (d : Dev) (kind subject sev origin : Nat) (data : List Nat) : Dev :=
  if d.fz.frozen then d else
  let now := d.sys.uptime
  let old : Sup := (d.mdt.sup.find? (fun p => p.kind = kind && p.subject = subject)).getD
    { Sup.reset with kind := kind, subject := subject }
  let recent := old.times.filter (fun t => decide (now < t + 1000000))
  let rest := d.mdt.sup.filter (fun p => !(p.kind = kind && p.subject = subject))
  if sev ≠ 3 && decide (10 ≤ recent.length) then
    { d with mdt := { d.mdt with sup := { old with times := recent, supp := old.supp + 1, lastAt := now } :: rest } }
  else if 16 ≤ d.mdt.queue.length then
    { d with mdt := { d.mdt with lost := satInc 65535 d.mdt.lost } }
  else
    let r : MRec := { seq := 0, kind := kind, subject := subject, lt := d.cmLt, uptime := now, sev := sev,
                      origin := origin, data := data, epoch := d.sys.epoch }
    { d with mdt := { d.mdt with queue := d.mdt.queue ++ [r],
                                 sup := { old with times := now :: recent } :: rest } }

/-- The record that closes a counted situation: of the KIND and SUBJECT that opened it, with no DATA (R340, R341; log entry
73). -/
def Dev.closing (d : Dev) (kind subject : Nat) : Dev := d.mordant kind subject 0 0 []

/-! ### Events (R18, R69, R124) -/

/-- Bytes of an event record. -/
def Evt.bytes (e : Evt) : List Nat :=
  le 2 e.code ++ le 2 e.subject ++ le 1 e.sev ++ le 1 e.flags ++ le 2 e.seq
    ++ le 8 e.lt ++ le 8 e.data ++ le 4 e.epoch ++ le 4 0

/-- Severity of an event code; TB_STATE's goes by the new state in its DATA (R160). -/
def evtSev (code data : Nat) : Nat :=
  match code with
  | 0x0104 => let n := bits data 15 8; if n = 4 then 2 else if n = 1 ∨ n = 3 then 1 else 0
  | 0x0101 | 0x0103 | 0x0105 | 0x0106 | 0x0108 | 0x0109 | 0x010C | 0x010E => 1
  | 0x0102 | 0x0107 | 0x010A | 0x010D => 2
  | 0x010B | 0x0302 | 0x0402 | 0x0502 | 0x0601 | 0x0A01 => 0
  | 0x0301 | 0x0303 | 0x0304 | 0x0305 | 0x0403 | 0x0501 | 0x0602 | 0x0901 => 1
  | 0x0306 | 0x0401 | 0x0404 | 0x0701 | 0x0801 => 2
  | 0x0B02 | 0x0B04 | 0x0B0A => 1
  | 0x0B03 => 3
  | _ => 2

/-- The functions an event concerns (R69): the owner of a ring or tag, PF1 for AUTH_FAIL, else both. -/
def Dev.concerned (d : Dev) (code subject : Nat) : List Nat :=
  match code with
  | 0x0701 => [(d.ring subject).owner]
  | 0x0601 => [if (d.tag subject).sender = 3 then 1 else 0]
  | 0x0801 => [1]
  | _ => [0, 1]

/-- Hold an event for a function, up to 64, or lose it (R18, R81, R85). -/
def Dev.keepEvent (d : Dev) (fn : Nat) (e : Evt) : Dev :=
  let f := d.fn fn
  if f.held.length < 64 then (d.setFn fn { f with held := f.held ++ [e] }).countHeld fn 9
  else (d.setFn fn { f with evtLost := satInc 65535 f.evtLost }).countLost fn 9

/-- Deliver one event to a function: to its lowest-numbered RUNNING EVT ring, or held, up to 64, or lost (R18, R81).
During a processor restart every event is held (R344). While earlier events are held the new one queues behind them. -/
def Dev.deliver (d : Dev) (fn : Nat) (e : Evt) : Dev :=
  let f := d.fn fn
  let e := { e with seq := f.evtSeq }
  let d := d.setFn fn { f with evtSeq := (f.evtSeq + 1) % 65536 }
  match d.firstRing fn 9 with
  | some k =>
    if d.sys.ready && (d.ring k).room && f.held.isEmpty then
      let x := d.reach k 32
      if x.2 then x.1.putEntry k e.bytes else x.1.keepEvent fn e
    else d.keepEvent fn e
  | none => d.keepEvent fn e

/-- A message for some mailbox channels (R161); UPSTREAM_POST posts it. A channel without an upstream buffer refuses it,
counted (R96). -/
def Dev.upstream (d : Dev) (chs : List Nat) (type : Nat) (body : List Nat) : Dev :=
  d.forEach chs (fun ch d => d.updMbx ch (fun m =>
    if m.upbuf = 0 then { m with upRefused := satInc (2 ^ 32 - 1) m.upRefused }
    else { m with repost := m.repost ++ [(d.sys.uptime, { UpMsg.reset with type := type, body := body })] }))

/-- The channels of a function (R87). -/
def mbxsOf (fn : Nat) : List Nat := (List.range 64).filter (fun ch => mbxFn ch = fn)

/-- An open fault closes (R126). -/
def Dev.closeFault (d : Dev) (code subject : Nat) : Dev :=
  { d with faults := d.faults.filter (fun o => !(o.1.code = code && o.1.subject = subject)) }

/-- AER Uncorrectable Error Status bit `k` of a function is set, numbered as PCI Express numbers them (R63; log entry
13). -/
def Dev.aerSet (d : Dev) (fn k : Nat) : Dev := d.updFn fn (fun f => { f with aer := f.aer ||| 2 ^ k })

/-- Raise an event for every function it concerns, keep it as an open fault when OPEN, close it when CLOSE, and have
ATTENTION posted for severities 2 and 3 where the owner has no RUNNING EVT ring (R18, R69, R124, R126, R161). The
line-time is that of a given one. -/
def Dev.raiseLt (d : Dev) (lt code subject data flags : Nat) : Dev :=
  let sev := evtSev code data
  let e : Evt := { code := code, subject := subject, sev := sev, flags := flags, seq := 0, lt := lt,
                   data := data, epoch := d.sys.epoch }
  let d := if bit flags 0 then
    { d with faults := d.faults ++ [({ e with seq := (d.fn 0).evtSeq }, (d.fn 1).evtSeq)] } else d
  let d := if bit flags 2 then d.closeFault code subject else d
  d.forEach (d.concerned code subject) (fun fn d =>
    let lone := (d.firstRing fn 9).isNone
    let d := d.deliver fn e
    if 2 ≤ sev && lone then d.upstream (mbxsOf fn) 2 e.bytes else d)

/-- Raise an event with the present line-time of domain `dm`. -/
def Dev.raiseIn (d : Dev) (dm code subject data flags : Nat) : Dev := d.raiseLt (d.ltNow dm) code subject data flags

/-- Raise an event stamped in the clock-master domain. -/
def Dev.raise (d : Dev) (code subject data : Nat) : Dev := d.raiseIn d.tb.master code subject data 0

/-- Raise an event and queue its Mordant record: an event code's record carries its DATA (R17, R350). -/
def Dev.alarmIn (d : Dev) (dm code subject data flags origin : Nat) : Dev :=
  (d.raiseIn dm code subject data flags).mordant code subject (evtSev code data) origin
    (le 8 data)

/-- The same with a line-time read before. -/
def Dev.alarmLt (d : Dev) (lt code subject data : Nat) : Dev :=
  (d.raiseLt lt code subject data 0).mordant code subject (evtSev code data) 0 (le 8 data)

/-- The same in the clock-master domain, by hardware. -/
def Dev.alarm (d : Dev) (code subject data : Nat) : Dev := d.alarmIn d.tb.master code subject data 0 0

/-! ### Rings in error (R74, R79) -/

/-- Tag numbers from 0 to 511 whose entry meets a condition, in ascending order. -/
def Dev.tagsWith (d : Dev) (p : Tag → Bool) : List Nat := (d.tags.filter (fun e => p e.2)).map (·.1)

/-- Records of a CPL ring that the host has not passed return to the device when the ring stops (R83, R114). -/
def Dev.recall (d : Dev) (k : Nat) : Dev :=
  let back : Tag → Bool := fun t => t.st = TagSt.written && t.ring = some k
  let n := (d.tagsWith back).length
  let d := { d with tags := Tab.mapAll (fun (_ : Nat) (t : Tag) =>
      if back t then { t with st := .held, heldRec := true } else t) d.tags }
  d.updRing k (fun r => { r with cntB := satAdd 65535 r.cntB n })

/-- The requests of a stream under way end, their data to be discarded, and so does its stall. -/
def Dev.dropStream (d : Dev) (st : Nat) : Dev :=
  { d with trn := { d.trn with stalls := d.trn.stalls.filter (fun e => e.stream ≠ st),
                               reads := d.trn.reads.filter (fun e => e.stream ≠ st) } }

/-- A ring enters ERROR: DMA stops, what feeds an object or a port's slots falls silent, one message and RING_ERROR (R74,
R79, R85); what the device holds for the ring stays held (R81). -/
def Dev.ringError (d : Dev) (k err : Nat) : Dev :=
  let d := ((d.dropStream k).updRing k (fun r =>
    { r with st := .error, err := err, staged := if r.hostProduced then [] else r.staged })).recall k
  let d := if (d.ring k).type = 1 then d.updObj (d.ring k).bind (fun o => if o.src = 1 && o.bind = k then { o with staged := [] } else o)
    else d
  (d.ringMsg k).alarm 0x0701 k err

/-! ### Completion records (R78, R114, R115) -/

/-- Bytes of a completion record. -/
def cplBytes (tag status opcode flags lt result epoch : Nat) : List Nat :=
  le 2 tag ++ le 2 status ++ le 2 opcode ++ le 2 flags ++ le 8 lt ++ le 8 result ++ le 4 epoch ++ le 4 0

/-- FLAGS of a tag's record (R78). -/
def Tag.flags (t : Tag) : Nat :=
  let asap := match t.hdr with | some h => !h.atLt | none => true
  b2n t.late + 2 * b2n asap + 4 * t.ltDom + 16 * b2n t.heldRec

/-- Result bytes leave through the stream of a tag, behind those that a stall holds back; a write that the cache knows to
fault stalls the stream (R53, R56); a fence drops it (R58). -/
def Dev.outWrite (d : Dev) (n iova : Nat) (bytes : List Nat) : Dev :=
  let st := 0x1000 + n
  let d' := d.updTag n (fun t => { t with outQ := t.outQ ++ [(iova, bytes)] })
  if d.streamFenced st then d
  else if !(d.tag n).outQ.isEmpty || d.stalled st then d'
  else match d.rangeFault (d.streamDom st) iova bytes.length true with
    | none => (d.dma (d.streamDom st) iova true false (d.epAt st iova) bytes).epDone st iova
    | some f => d'.stallOn st f.1 bytes.length f.2.1 f.2.2 true false

/-- A command ends: the tag is DONE with its record, or, when the record is marked to be dropped, a COMMAND_DROPPED
Mordant record is queued and the tag is FREE (R114, R101). While a stall holds back bytes of its result the command
waits and holds its tag (R56). -/
def Dev.finish (d : Dev) (n status lt result : Nat) : Dev :=
  let t := d.tag n
  if t.st ≠ .active then d
  else if !t.outQ.isEmpty then d.setTag n { t with fin := some (status, lt, result), effs := [], waits := 0 }
  else if t.drop then
    (d.mordant 0x0F07 n 0 t.sender (le 2 t.opcode ++ le 2 0x0202 ++ le 2 status ++ le 8 lt)).setTag n Tag.reset
  else { d.setTag n { t with st := .done, status := status, lt := lt, result := result, epoch := d.sys.epoch,
                             effs := [], waits := 0, seq := d.dones } with dones := d.dones + 1 }

/-- A command fails: its status, no effect, LT and RESULT zero (R119); nothing of its result is still to be written. -/
def Dev.fail (d : Dev) (n status : Nat) : Dev := (d.updTag n (fun t => { t with outQ := [], fin := none })).finish n status 0 0

/-- The result bytes that a stall held back leave once it has ended, and the command completes, a test with DIAG_DONE
(R55, R56, R294). -/
def Dev.outFlush (d : Dev) (n : Nat) : Dev :=
  let q := (d.tag n).outQ
  let d := q.foldl (fun d p => d.outWrite n p.1 p.2) (d.updTag n (fun t => { t with outQ := [] }))
  match (d.tag n).outQ, (d.tag n).fin with
  | [], some f =>
    let d := (d.updTag n (fun t => { t with fin := none })).finish n f.1 f.2.1 f.2.2
    if [0x0600, 0x0601, 0x0603].contains (d.tag n).opcode && (d.tag n).st = .done then d.raise 0x0601 n f.2.2 else d
  | _, _ => d

/-- The same in acceptance order (R118). -/
def Dev.tagsInOrder (d : Dev) (p : Tag → Bool) : List Nat :=
  let l := d.tags.filter (fun e => p e.2)
  (sortBy (fun e => e.2.order) l).map (·.1)

/-! ### Return codes (R117) -/

/-- OK -/ def OK : Nat := 0
/-- BAD_OPCODE -/ def BAD_OPCODE : Nat := 0x0100
/-- BAD_LENGTH -/ def BAD_LENGTH : Nat := 0x0101
/-- BAD_POINTER -/ def BAD_POINTER : Nat := 0x0102
/-- OUT_OF_RANGE -/ def OUT_OF_RANGE : Nat := 0x0103
/-- NOT_PERMITTED -/ def NOT_PERMITTED : Nat := 0x0104
/-- ENVELOPE -/ def ENVELOPE : Nat := 0x0105
/-- BUSY -/ def BUSY : Nat := 0x0106
/-- CANCELLED -/ def CANCELLED : Nat := 0x0200
/-- RESET_DISCARD -/ def RESET_DISCARD : Nat := 0x0201
/-- TIMEOUT -/ def TIMEOUT : Nat := 0x0300
/-- HW_FAULT -/ def HW_FAULT : Nat := 0x0400

end Sys2Proof.Machine
end

