-- ==== Sys2Proof/Machine/Operands.lean ====
section
/-! DEFINITION. The operand forms of the Ramcen commands: opcodes, senders, lengths, update moments (R133–R158), and
reading a descriptor (R110) and a payload (R134) from their bytes. -/

namespace Sys2Proof.Machine

/-- The update moments of R133: at acceptance, sample-exact, block-granular, frame boundary, FSYNC, only while the
target is disabled, long-running. -/
inductive When where
  | a | s | b | f | p | dis | l
deriving DecidableEq, Repr

/-- What the opcode tables fix of an opcode: senders (bit 0 PF0, 1 PF1, 2 the sideband port), PLEN or its part up to
the counted elements, bytes of one element, the largest count, bytes of the result buffer, update moment. -/
structure OpRow where
  op : Nat
  senders : Nat
  fixed : Nat
  unit : Nat
  maxN : Nat
  out : Nat
  mom : When
deriving DecidableEq, Repr

/-- A row without counted elements. -/
def opRow (op senders fixed out : Nat) (mom : When) : OpRow := ⟨op, senders, fixed, 0, 0, out, mom⟩

/-- System commands (R136). -/
def opsSystem : List OpRow :=
  [opRow 0x0100 7 0 64 .a, opRow 0x0101 3 0 98304 .a, opRow 0x0102 7 8 0 .a, opRow 0x0103 3 8 0 .dis,
   opRow 0x0104 3 8 0 .a, opRow 0x0105 3 12 0 .a, opRow 0x0106 3 8 0 .a, opRow 0x0107 3 8 0 .a,
   opRow 0x0108 3 8 0 .dis, opRow 0x0109 3 16 0 .a, opRow 0x010A 2 8 0 .a, opRow 0x010B 3 8 0 .a,
   opRow 0x010C 3 8 0 .a]

/-- Channel commands (R141). -/
def opsChannel : List OpRow :=
  [opRow 0x0200 3 16 0 .s, opRow 0x0201 7 16 0 .b, opRow 0x0202 7 16 0 .s, opRow 0x0203 3 8 0 .dis,
   opRow 0x0204 3 200 0 .b, opRow 0x0205 3 16 0 .b, opRow 0x0206 3 16 0 .a, opRow 0x0207 7 8 128 .a]

/-- Render commands (R143). -/
def opsRender : List OpRow :=
  [opRow 0x0300 3 8 0 .s, opRow 0x0301 3 20 0 .b, opRow 0x0302 3 12 0 .b, ⟨0x0303, 3, 8, 16, 4096, 0, .b⟩,
   ⟨0x0304, 3, 8, 256, 1024, 0, .b⟩, ⟨0x0305, 3, 8, 16, 48, 0, .b⟩, opRow 0x0306 3 8 0 .b, opRow 0x0307 3 8 0 .f,
   opRow 0x0308 3 8 0 .b]

/-- Port commands (R146). -/
def opsPort : List OpRow :=
  [opRow 0x0400 3 8 0 .dis, opRow 0x0401 3 8 0 .dis, opRow 0x0402 3 8 0 .s, opRow 0x0403 3 12 0 .p,
   opRow 0x0404 3 8 0 .b, opRow 0x0405 3 68 0 .p, opRow 0x0406 3 24 0 .dis]

/-- Protection commands (R149). -/
def opsProtection : List OpRow :=
  [opRow 0x0500 3 16 0 .b, opRow 0x0501 3 56 0 .b, opRow 0x0502 3 56 0 .b, opRow 0x0503 3 16 0 .b,
   opRow 0x0504 3 8 0 .b]

/-- Diagnostic commands (R150). -/
def opsDiag : List OpRow :=
  [opRow 0x0600 7 16 768 .l, opRow 0x0601 3 22 768 .l, opRow 0x0602 3 16 0 .b, opRow 0x0603 3 16 768 .l,
   ⟨0x0604, 3, 8, 16, 8, 0, .a⟩, opRow 0x0605 3 8 0 .a]

/-- Ring and secure commands (R152, R153). -/
def opsRingSecure : List OpRow :=
  [opRow 0x0700 3 40 0 .a, opRow 0x0701 3 8 0 .a, opRow 0x0702 2 8 0 .a,
   opRow 0x0800 2 24 0 .b, opRow 0x0801 2 0 0 .a, opRow 0x0802 2 72 0 .b, opRow 0x0803 2 128 0 .a,
   opRow 0x0804 2 24 0 .a, opRow 0x0805 2 8 0 .a, opRow 0x0806 2 8 0 .a, opRow 0x0807 2 72 0 .a]

/-- Mordant, decimation and fault-policy commands (R156–R158). -/
def opsRest : List OpRow :=
  [opRow 0x0900 7 0 0 .a, opRow 0x0901 3 16 0 .l, opRow 0x0902 7 40 0 .a,
   opRow 0x0A00 3 24 0 .b, ⟨0x0A01, 3, 24, 4, 64, 0, .a⟩, opRow 0x0A02 3 24 0 .s, opRow 0x0A03 3 24 0 .b,
   opRow 0x0A04 3 0 0 .s,
   opRow 0x0B00 3 8 0 .b, opRow 0x0B01 3 18 0 .b, opRow 0x0B02 3 8 0 .b, opRow 0x0B03 3 16 0 .b,
   opRow 0x0B04 7 8 0 .b, opRow 0x0B05 7 8 0 .a, opRow 0x0B06 7 8 0 .a]

/-- All 74 opcodes. -/
def opRows : List OpRow :=
  opsSystem ++ opsChannel ++ opsRender ++ opsPort ++ opsProtection ++ opsDiag ++ opsRingSecure ++ opsRest

/-- The row of an opcode. -/
def rowOf (op : Nat) : Option OpRow := opRows.find? (fun r => r.op = op)

/-- Opcode of a command (R136–R158). -/
def Cmd.op : Cmd → Nat
  | .getInfo => 0x0100 | .getSummary => 0x0101 | .cancel .. => 0x0102 | .tbRate .. => 0x0103
  | .tbEnable .. => 0x0104 | .tbTiming .. => 0x0105 | .tbDpll .. => 0x0106 | .tbClockmaster .. => 0x0107
  | .tbPair .. => 0x0108 | .mbxConfig .. => 0x0109 | .restart .. => 0x010A | .powerState .. => 0x010B
  | .twConfig .. => 0x010C
  | .chEnable .. => 0x0200 | .chVolume .. => 0x0201 | .chMute .. => 0x0202 | .chBridge .. => 0x0203
  | .chLoop .. => 0x0204 | .chCarrier .. => 0x0205 | .chZcto .. => 0x0206 | .chStatus .. => 0x0207
  | .objSource .. => 0x0300 | .objPosition .. => 0x0301 | .objBulkdelay .. => 0x0302 | .ctxWrite .. => 0x0303
  | .shapeLoad .. => 0x0304 | .geometry .. => 0x0305 | .panLaw .. => 0x0306 | .sceneConfig .. => 0x0307
  | .objBasic .. => 0x0308
  | .portPreset .. => 0x0400 | .portFormat .. => 0x0401 | .portEnable .. => 0x0402 | .portMask .. => 0x0403
  | .portSlip .. => 0x0404 | .portRoute .. => 0x0405 | .pdmConfig .. => 0x0406
  | .protProfile .. => 0x0500 | .protThermal .. => 0x0501 | .protTs .. => 0x0502 | .protLimits .. => 0x0503
  | .railBudget .. => 0x0504
  | .diagRun .. => 0x0600 | .diagTones .. => 0x0601 | .pilot .. => 0x0602 | .acoustic .. => 0x0603
  | .quietWindows .. => 0x0604 | .measBind .. => 0x0605
  | .ringSetup .. => 0x0700 | .ringDestroy .. => 0x0701 | .isoReserve .. => 0x0702
  | .envSet .. => 0x0800 | .authChallenge => 0x0801 | .envUnlock .. => 0x0802 | .ownerKey .. => 0x0803
  | .stage .. => 0x0804 | .stageCommit .. => 0x0805 | .activate .. => 0x0806 | .mordantClear .. => 0x0807
  | .mdtInfo => 0x0900 | .mdtExport .. => 0x0901 | .mdtNote .. => 0x0902
  | .decPreset .. => 0x0A00 | .decFir .. => 0x0A01 | .decSwap .. => 0x0A02 | .decDcblock .. => 0x0A03
  | .dsync => 0x0A04
  | .policy .. => 0x0B00 | .ocLimits .. => 0x0B01 | .thLimits .. => 0x0B02 | .dcLimits .. => 0x0B03
  | .faultClear .. => 0x0B04 | .emgMuteCmd .. => 0x0B05 | .faultCounters .. => 0x0B06

/-- The count that a payload carries (R134); 0 where PLEN is fixed. -/
def Cmd.count : Cmd → Nat
  | .ctxWrite n _ => n | .shapeLoad _ n _ => n | .geometry _ n _ => n | .quietWindows n _ => n
  | .decFir _ _ n _ => n
  | _ => 0

/-- Update moment of a command (R133, R141: CH_CARRIER is a D command when PERIOD ≠ 0). -/
def Cmd.mom (c : Cmd) : When :=
  match c with
  | .chCarrier _ period _ _ => if period = 0 then .b else .dis
  | _ => match rowOf (Cmd.op c) with
    | some r => r.mom
    | none => .a

/-! ### Reading bytes -/

/-- The `n`-byte number at an offset. -/
def fld (b : List Nat) (o n : Nat) : Nat := ofLe ((b.drop o).take n)
/-- The signed `n`-byte number at an offset. -/
def fldS (b : List Nat) (o n : Nat) : Int := signed (8 * n) (fld b o n)
/-- `k` signed 32-bit numbers from an offset. -/
def words (b : List Nat) (o k : Nat) : List Int := (List.range k).map (fun i => fldS b (o + 4 * i) 4)

/-- A CTX_WRITE entry (R145), and its reserved bits. -/
def ctxEntryOf (b : List Nat) (o : Nat) : CtxEntry :=
  { ctx := fld b o 2, valid := fld b (o + 2) 1, taps := fld b (o + 3) 1, gain := fld b (o + 4) 4,
    delay := fld b (o + 8) 4, shape := fld b (o + 12) 2, ramp := fld b (o + 14) 2 }

/-- COEF (R214). -/
def coefOf (b : List Nat) (o : Nat) : Coef :=
  { flags := fld b o 4, vfs := fld b (o + 4) 4, kr := fldS b (o + 8) 4, kv := fldS b (o + 12) 4,
    ki := fldS b (o + 16) 4, kz1 := fldS b (o + 20) 4, kz2 := fldS b (o + 24) 4, kd := fldS b (o + 28) 4,
    lv := fldS b (o + 32) 4, li := fldS b (o + 36) 4, ld := fldS b (o + 40) 4, phi := words b (o + 44) 4,
    gamma := words b (o + 60) 2, pre := words b (o + 68) 15, ulim := fld b (o + 128) 4,
    zlim := fld b (o + 132) 4, ffAlpha := fld b (o + 136) 4 }

/-- CONST (R247). -/
def constOf (b : List Nat) (o : Nat) : ConstSet :=
  { flags := fld b o 4, t0 := fldS b (o + 4) 2, ta0 := fldS b (o + 6) 2, rthCm := fld b (o + 8) 4,
    rthMf := fld b (o + 12) 4, rthFa := fld b (o + 16) 4, cthC := fld b (o + 20) 4, cthM := fld b (o + 24) 4,
    cthF := fld b (o + 28) 4, ke := fld b (o + 32) 4, kc := fld b (o + 36) 2, ka := fld b (o + 38) 2,
    tauLong := fld b (o + 40) 2, knee := fld b (o + 42) 2, horizon := fld b (o + 44) 2 }

/-- TS (R251). -/
def tsOf (b : List Nat) (o : Nat) : TsSet :=
  { re := fld b o 4, le := fld b (o + 4) 4, bl := fld b (o + 8) 4, mms := fld b (o + 12) 4, cms := fld b (o + 16) 4,
    rms := fld b (o + 20) 4, hpmin := fld b (o + 24) 2, hpmax := fld b (o + 26) 2, hpthr := fld b (o + 28) 2,
    release := fld b (o + 30) 2 }

/-- A ring descriptor (R68). -/
def ringDescOf (b : List Nat) (o : Nat) : RingDesc :=
  { base := fld b o 8, log2n := fld b (o + 8) 1, type := fld b (o + 9) 1, esize := fld b (o + 10) 2,
    domain := fld b (o + 12) 1, owner := fld b (o + 13) 1, vector := fld b (o + 14) 1, state := fld b (o + 15) 1,
    wmark := fld b (o + 16) 4, bind := fld b (o + 20) 2, head := fld b (o + 24) 4, tail := fld b (o + 28) 4 }

/-- Points of GEOMETRY: 16-byte entries X, Y, Z and four reserved bytes. -/
def pointsOf (b : List Nat) (n : Nat) : List Point :=
  (List.range n).map (fun i => { x := fldS b (8 + 16 * i) 4, y := fldS b (12 + 16 * i) 4, z := fldS b (16 + 16 * i) 4 })

/-- Quiet windows: START 8, DUR 4, PERIOD 4. -/
def qwinsOf (b : List Nat) (n : Nat) : List QWin :=
  (List.range n).map (fun i =>
    { start := fld b (8 + 16 * i) 8, dur := fld b (16 + 16 * i) 4, period := fld b (20 + 16 * i) 4 })

/-- The sum of a payload's reserved bytes; any bit set makes it non-zero. -/
def resv (b : List Nat) (l : List (Nat × Nat)) : Nat := (l.map (fun p => fld b p.1 p.2)).sum

/-- A payload as a command (R134–R158), and the sum of its reserved fields. -/
def cmdOf (op : Nat) (b : List Nat) : Option (Cmd × Nat) :=
  match op with
  | 0x0100 => some (.getInfo, 0)
  | 0x0101 => some (.getSummary, 0)
  | 0x0102 => some (.cancel (fld b 0 2), resv b [(2, 6)])
  | 0x0103 => some (.tbRate (fld b 0 1) (fld b 1 1) (fld b 2 1) (fld b 4 2), resv b [(3, 1), (6, 2)])
  | 0x0104 => some (.tbEnable (fld b 0 1) (fld b 1 1), resv b [(2, 6)])
  | 0x0105 => some (.tbTiming (fld b 0 1) (fld b 1 1) (fld b 2 2) (fld b 4 4) (fld b 8 4), 0)
  | 0x0106 => some (.tbDpll (fld b 0 1) (fld b 2 2), resv b [(1, 1), (4, 4)])
  | 0x0107 => some (.tbClockmaster (fld b 0 1), resv b [(1, 7)])
  | 0x0108 => some (.tbPair (fld b 0 1) (fld b 1 1) (fld b 2 1) (fldS b 4 2), resv b [(3, 1), (6, 2)])
  | 0x0109 => some (.mbxConfig (fld b 0 1) (fld b 1 1) (fld b 2 2) (fld b 4 1) (fld b 6 2) (fld b 8 8), resv b [(5, 1)])
  | 0x010A => some (.restart (fld b 0 1), resv b [(1, 7)])
  | 0x010B => some (.powerState (fld b 0 1), resv b [(1, 7)])
  | 0x010C => some (.twConfig (fld b 0 1) (fld b 1 1) (fld b 2 1) (fld b 3 1), resv b [(4, 4)])
  | 0x0200 => some (.chEnable (fld b 0 8) (fld b 8 1) (fld b 9 1), resv b [(10, 6)])
  | 0x0201 => some (.chVolume (fld b 0 8) (fldS b 8 2) (fld b 10 2), resv b [(12, 4)])
  | 0x0202 => some (.chMute (fld b 0 8) (fld b 8 1) (fld b 10 2), resv b [(9, 1), (12, 4)])
  | 0x0203 => some (.chBridge (fld b 0 4), resv b [(4, 4)])
  | 0x0204 => some (.chLoop (fld b 0 8) (coefOf b 8), resv b [(148, 52)])
  | 0x0205 => some (.chCarrier (fld b 0 8) (fld b 8 2) (fld b 10 1) (fld b 11 1), resv b [(12, 4)])
  | 0x0206 => some (.chZcto (fld b 0 8) (fld b 8 2), resv b [(10, 6)])
  | 0x0207 => some (.chStatus (fld b 0 1), resv b [(1, 7)])
  | 0x0300 => some (.objSource (fld b 0 2) (fld b 2 1) (fld b 3 1) (fld b 4 2) (fld b 6 1), resv b [(7, 1)])
  | 0x0301 => some (.objPosition (fld b 0 2) ⟨fldS b 4 4, fldS b 8 4, fldS b 12 4⟩ (fldS b 16 2), resv b [(2, 2), (18, 2)])
  | 0x0302 => some (.objBulkdelay (fld b 0 2) (fld b 4 4) (fld b 8 2), resv b [(2, 2), (10, 2)])
  | 0x0303 => some (.ctxWrite (fld b 0 2) ((List.range (fld b 0 2)).map (fun i => ctxEntryOf b (8 + 16 * i))), resv b [(2, 6)])
  | 0x0304 => some (.shapeLoad (fld b 0 2) (fld b 2 2) (words b 8 (64 * fld b 2 2)), resv b [(4, 4)])
  | 0x0305 => some (.geometry (fld b 0 1) (fld b 1 1) (pointsOf b (fld b 1 1)),
      resv b ((2, 6) :: (List.range (fld b 1 1)).map (fun i => (20 + 16 * i, 4))))
  | 0x0306 => some (.panLaw (fld b 0 1) (fld b 2 2), resv b [(1, 1), (4, 4)])
  | 0x0307 => some (.sceneConfig (fld b 0 1) (fld b 1 1) (fld b 2 1) (fld b 4 2), resv b [(3, 1), (6, 2)])
  | 0x0308 => some (.objBasic (fld b 0 2), resv b [(2, 6)])
  | 0x0400 => some (.portPreset (fld b 0 1) (fld b 1 1) (fld b 2 1) (fld b 3 1), resv b [(4, 4)])
  | 0x0401 => some (.portFormat (fld b 0 1) (fld b 1 1) (fld b 2 1) (fld b 3 1) (fld b 4 1) (fld b 5 1) (fld b 6 1) (fld b 7 1), 0)
  | 0x0402 => some (.portEnable (fld b 0 1) (fld b 1 1) (fld b 4 2) (fld b 6 2), resv b [(2, 2)])
  | 0x0403 => some (.portMask (fld b 0 1) (fld b 4 4) (fld b 8 4), resv b [(1, 3)])
  | 0x0404 => some (.portSlip (fld b 0 1) (fld b 1 1) (fld b 2 2) (fld b 4 2), resv b [(6, 2)])
  | 0x0405 => some (.portRoute (fld b 0 1) ((List.range 32).map (fun i => fld b (4 + 2 * i) 2)), resv b [(1, 3)])
  | 0x0406 => some (.pdmConfig (fld b 0 1) (fld b 4 4) ((List.range 4).map (fun i => fld b (8 + 4 * i) 4)), resv b [(1, 3)])
  | 0x0500 => some (.protProfile (fld b 0 8) (fld b 8 2), resv b [(10, 6)])
  | 0x0501 => some (.protThermal (fld b 0 8) (constOf b 8), resv b [(54, 2)])
  | 0x0502 => some (.protTs (fld b 0 8) (tsOf b 8), resv b [(40, 16)])
  | 0x0503 => some (.protLimits (fld b 0 8) (fld b 8 2) (fld b 10 2) (fld b 12 2) (fld b 14 2), 0)
  | 0x0504 => some (.railBudget (fld b 0 2), resv b [(2, 6)])
  | 0x0600 => some (.diagRun (fld b 0 8) (fld b 8 1) (fld b 9 1), resv b [(10, 6)])
  | 0x0601 => some (.diagTones (fld b 0 8) (fld b 8 1) (fld b 10 2) (fld b 12 2) (fldS b 14 2) (fld b 16 2), resv b [(9, 1), (18, 4)])
  | 0x0602 => some (.pilot (fld b 0 8) (fld b 8 1) (fld b 10 2) (fldS b 12 2), resv b [(9, 1), (14, 2)])
  | 0x0603 => some (.acoustic (fld b 0 8) (fld b 8 4) (fld b 12 1) (fld b 13 1) (fldS b 14 2), 0)
  | 0x0604 => some (.quietWindows (fld b 0 1) (qwinsOf b (fld b 0 1)), resv b [(1, 7)])
  | 0x0605 => some (.measBind (fld b 0 2), resv b [(2, 6)])
  | 0x0700 => some (.ringSetup (fld b 0 2) (ringDescOf b 8), resv b [(2, 6), (30, 2)])
  | 0x0701 => some (.ringDestroy (fld b 0 2), resv b [(2, 6)])
  | 0x0702 => some (.isoReserve (fld b 0 2) (fld b 2 2), resv b [(4, 4)])
  | 0x0800 => some (.envSet (fld b 0 8) (fld b 8 2) (fld b 10 2) (fld b 12 2) (fld b 14 2) (fld b 16 2) (fld b 18 1), resv b [(19, 5)])
  | 0x0801 => some (.authChallenge, 0)
  | 0x0802 => some (.envUnlock (fld b 0 8) (fld b 8 64), 0)
  | 0x0803 => some (.ownerKey (fld b 0 64) (fld b 64 64), 0)
  | 0x0804 => some (.stage (fld b 0 1) (fld b 4 4) (fld b 8 4) (fld b 16 8), resv b [(1, 3), (12, 4)])
  | 0x0805 => some (.stageCommit (fld b 0 1), resv b [(1, 7)])
  | 0x0806 => some (.activate (fld b 0 1) (fld b 1 1), resv b [(2, 6)])
  | 0x0807 => some (.mordantClear (fld b 0 1) (fld b 8 64), resv b [(1, 7)])
  | 0x0900 => some (.mdtInfo, 0)
  | 0x0901 => some (.mdtExport (fld b 0 1) (fld b 4 4) (fld b 8 4) (fld b 12 2), resv b [(1, 3), (14, 2)])
  | 0x0902 => some (.mdtNote (fld b 0 2) (leBytes 32 (fld b 8 32)), resv b [(2, 6)])
  | 0x0A00 => some (.decPreset (fld b 0 16) (fld b 16 1), resv b [(17, 7)])
  | 0x0A01 => some (.decFir (fld b 0 16) (fld b 16 1) (fld b 17 1) (words b 24 (fld b 17 1)), resv b [(18, 6)])
  | 0x0A02 => some (.decSwap (fld b 0 16), resv b [(16, 8)])
  | 0x0A03 => some (.decDcblock (fld b 0 16) (fld b 16 2) (fld b 18 1), resv b [(19, 5)])
  | 0x0A04 => some (.dsync, 0)
  | 0x0B00 => some (.policy (fld b 0 1) (fld b 1 1) (fld b 2 1), resv b [(3, 5)])
  | 0x0B01 => some (.ocLimits (fld b 0 8) (fld b 8 2) (fld b 10 1) (fld b 11 1) (fld b 12 2) (fld b 14 2) (fld b 16 1), resv b [(17, 1)])
  | 0x0B02 => some (.thLimits (fld b 0 1) (fld b 2 2), resv b [(1, 1), (4, 4)])
  | 0x0B03 => some (.dcLimits (fld b 0 8) (fld b 8 2) (fld b 10 2) (fld b 12 1), resv b [(13, 3)])
  | 0x0B04 => some (.faultClear (fld b 0 8), 0)
  | 0x0B05 => some (.emgMuteCmd (fld b 0 1) (fld b 1 1) (fld b 2 2), resv b [(4, 4)])
  | 0x0B06 => some (.faultCounters (fld b 0 8), 0)
  | _ => none

/-- Offset and size of the count in a payload (R134). -/
def countAt (op : Nat) : Nat × Nat :=
  match op with
  | 0x0304 => (2, 2)
  | 0x0305 => (1, 1)
  | 0x0604 => (0, 1)
  | 0x0A01 => (17, 1)
  | _ => (0, 2)

/-- A descriptor's fields (R110); reserved bits are summed, and LT counts as reserved when AT_LT is 0. -/
def hdrOf (via : Via) (len reply : Nat) (b : List Nat) : Hdr :=
  let flags := fld b 4 4
  { via := via, reply := reply, tag := fld b 2 2 % 512, atLt := bit flags 0, domain := bits flags 2 1, ordered := bit flags 3,
    lt := fld b 8 8, payload := fld b 16 8, plen := fld b 24 4, out := fld b 32 8, outlen := fld b 40 4,
    rsvd := fld b 2 2 / 512 + flags / 16 + fld b 28 4 + fld b 44 20 + (if bit flags 0 then 0 else fld b 8 8),
    len := len }

/-- Channels of a CHMASK (R135). -/
def chList (mask : Nat) : List Nat := maskList 48 mask

/-- The mask names the partner of a bridged pair (R225); every command with a CHMASK but FAULT_COUNTERS checks it (log
entry 44). -/
def Dev.namesPartner (d : Dev) (mask : Nat) : Bool :=
  (chList mask).any (fun n => n % 2 = 1 && (d.pr (n / 2)).bridged)

/-- A CHMASK or another mask of `n` bits is empty or names an instance that does not exist (R135). -/
def badMask (n mask : Nat) : Bool := mask = 0 || decide (2 ^ n ≤ mask)

/-- The status of the first check that fails, in the order given (R116). -/
def firstFail : List (Bool × Nat) → Option Nat
  | [] => none
  | (c, code) :: t => if c then some code else firstFail t

/-- A value lies outside a range. -/
def out (v lo hi : Nat) : Bool := decide (v < lo ∨ hi < v)
/-- A signed value lies outside a range. -/
def outI (v lo hi : Int) : Bool := decide (v < lo ∨ hi < v)

end Sys2Proof.Machine
end

