-- ==== Sys2Proof/Machine/Schedule.lean ====
section
/-! DEFINITION. When a command takes effect and what its completion says (R33–R35, R118, R119), the instances it is
aimed at, and cancelling (R123, R138). -/

namespace Sys2Proof.Machine

/-! ### Line-time and instants -/

/-- Nominal speed of line-time in 1/65,536 lines per µs. -/
def Dom.nominal (m : Dom) : Rat :=
  let f := rateFps m.rate
  (f.1 * m.perFrame : Nat) / (f.2 * 1000000 : Nat)

/-- Correction of a running slew, at most 100 ppm; it stops in HOLDOVER and FREERUN (R26). -/
def Dom.slewPpm (m : Dom) : Rat :=
  if m.st = .holdover || m.st = .freerun then 0
  else if 0 < m.slew then 100 else if m.slew < 0 then -100 else 0

/-- Present speed of line-time: the frequency estimate and a running slew (R26). -/
def Dom.speed (m : Dom) : Rat := m.nominal * (1 + (m.freq + m.slewPpm) / 1000000)

/-- Length of a frame-count cycle in 1/65,536 lines. -/
def Dom.cycle (m : Dom) : Nat := rateMod m.rate * m.perFrame

/-- µs until the domain's line-time reaches a position, within one cycle. -/
def Dom.usTo (m : Dom) (p : Nat) : Rat :=
  (((p + m.cycle - m.pos % m.cycle) % m.cycle : Nat) - m.sub) / m.speed

/-- SC of the first sample presented at or after an instant `us` µs from now (R118). -/
def Dom.scAfter (m : Dom) (us : Rat) : Nat := m.w * m.sM + m.cAt m.pos (m.sub + us * m.speed)

/-- µs from now until a sample is presented. -/
def Dom.usOfSc (m : Dom) (sc : Nat) : Rat :=
  let nk := rateNK m.rate m.dbl
  let at_ : Rat := ((sc / m.sM * m.cycle : Nat) : Rat) + ((sc % m.sM * nk.2 * m.perFrame : Nat) : Rat) / (nk.1 : Rat)
  (at_ - ((m.w * m.cycle + m.pos : Nat) : Rat) - m.sub) / m.speed

/-- Line-time of domain `q` at an instant `us` µs from now. -/
def Dev.ltAfter (d : Dev) (q : Nat) (us : Rat) : Nat :=
  let m := d.dom (d.clk q)
  let p := (((m.pos : Rat) + m.sub + us * m.speed + (m.cycle : Rat)).floor).toNat % m.cycle
  if (d.dom q).st = .disabled then 0
  else if d.tb.pair && q = 1 then m.ltWord (m.shift p d.tb.offset) else m.ltWord p

/-- Position in the clock of its domain that a stamp names; TD1 of a pair is O lines ahead (R31). -/
def Dev.stampPos (d : Dev) (q lt : Nat) : Nat :=
  let m := d.dom (d.clk q)
  if d.tb.pair && q = 1 then m.shift (m.posOfLt lt) (-d.tb.offset) else m.posOfLt lt % m.cycle

/-! ### Effective samples (R33–R35, R118) -/

/-- Effective sample of a command in a domain, and whether it is late (R35): ASAP at the first block not rendered; a
stamp at its first sample, or, accepted later than L_pres + 1.0 ms before it, at the earliest sample not rendered. -/
def Dev.effOf (d : Dev) (h : Hdr) (r : Nat) : Nat × Bool :=
  let m := d.dom (d.clk r)
  let next := (d.dom r).nextBlk
  if !h.atLt then (next, false)
  else
    let k := d.dom (d.clk h.domain)
    let p := d.stampPos h.domain h.lt
    if !k.isFuture k.pos p then (next, true)
    else
      let us := k.usTo p
      let s := if d.clk h.domain = d.clk r then k.scOfStamp p else m.scAfter us
      if us < ((d.dom r).lpres : Rat) + 1000 then (max s next, true) else (s, false)

/-- The domain whose blocks time a tag's effect in domain `r`: a DISABLED one is timed by the stamp's DOMAIN. -/
def Dev.timing (d : Dev) (t : Tag) (r : Nat) : Nat :=
  match t.hdr with
  | some h => if h.atLt && (d.dom r).st = .disabled then h.domain else r
  | none => r

/-- First sample of the first frame that begins at or after a sample (R133 F), where frames begin `o` lines before the
clock's (R31). -/
def Dom.frameSample (m : Dom) (o : Int) (sc : Nat) : Nat :=
  let nk := rateNK m.rate m.dbl
  let x : Rat := ((sc % m.sM * nk.2 * m.perFrame : Nat) : Rat) / (nk.1 : Rat) + ((o * 65536 : Int) : Rat)
  let q : Int := (x / (m.perFrame : Rat)).ceil * (m.perFrame : Int) - o * 65536
  sc / m.sM * m.sM + m.cAt q.toNat 0

/-- Lines by which a domain lies ahead of its clock: O for TD1 of a pair (R31). -/
def Dev.ahead (d : Dev) (r : Nat) : Int := if d.tb.pair && r = 1 then d.tb.offset else 0

/-- Moment of a tag's command. -/
def Tag.mom (t : Tag) : When := match t.cmd with | some c => Cmd.mom c | none => .a

/-- The tag's command is stamped. -/
def Tag.atLt (t : Tag) : Bool := match t.hdr with | some h => h.atLt | none => false

/-- Chain numbers that a CHAINMASK selects. -/
def chainList (mask : Nat) : List Nat := maskList 128 mask

/-- The domain whose blocks time a chain's changes: the channel's; the clock master's for a microphone (log entry 26). -/
def Dev.chainDom (d : Dev) (c : Nat) : Nat := if c < 96 then (d.chan (c % 48)).dom else d.tb.master

/-- Samples of domain `x` between two output samples of the slowest selected tap that a DEC_SWAP names there: one where the
tap is no slower (R233; log entry 26). -/
def Dev.swapGrid (d : Dev) (t : Tag) (x : Nat) : Nat :=
  match t.cmd with
  | some (.decSwap m) =>
    let S := (d.dom (d.clk x)).blk
    ((chainList m).filter (fun c => d.chainDom c = x)).foldl (fun a c =>
      max a (match (d.chain c).preset with | 2 => S / 32 | 3 => S / 8 | _ => 1)) 1
  | _ => 1

/-- The tag's effect on the resources of domain `r` is due in the block of `x` that begins at `b`: the sample at which
it falls there (R33, R34). -/
def Dev.dueAt (d : Dev) (t : Tag) (x b : Nat) (e : Nat × Nat) : Option Nat :=
  let m := d.dom (d.clk x)
  if d.timing t e.1 ≠ x || t.lockWait then none
  else match t.mom with
    | .s => let g := d.swapGrid t e.1
            let s := (e.2 + g - 1) / g * g
            if s < b + m.blk then some (max s b) else none
    | .f => let s := m.frameSample (d.ahead x) e.2
            if s < b + m.blk then some (max s b) else none
    | .p => none
    | _ => if m.ceilBlk e.2 ≤ b then some b else none

/-- Its natural place was an earlier block: it is taken late (R121, R35). -/
def Dev.overdue (d : Dev) (t : Tag) (x b s : Nat) : Bool :=
  let m := d.dom (d.clk x)
  t.atLt && (match t.mom with
    | .s => decide (s < b)
    | .f => decide (m.frameSample (d.ahead x) s < b)
    | _ => decide (m.ceilBlk s < b))

/-! ### Completion (R118, R119) -/

/-- A command that reads state and changes none. -/
def Cmd.reads (c : Cmd) : Bool :=
  match c with
  | .getInfo | .getSummary | .chStatus _ | .mdtInfo => true
  | _ => false

/-- LT of a completion and its domain: one domain, its effective line-time in DOMAIN for a stamp and in the resource's
domain otherwise; several, the latest instant in the clock-master's line-time; a command that acts at once, the line-time
now in its resource's domain; one that reads state, the clock-master line-time now (R118, R119). -/
def Dev.ltDone (d : Dev) (t : Tag) : Nat × Nat :=
  if t.cmd.any Cmd.reads then (d.cmLt, d.tb.master) else
  match t.done with
  | [] => (d.ltNow t.ltDom, t.ltDom)
  | [e] =>
    match t.hdr with
    | some h =>
      if !h.atLt then (d.ltOfSc e.1 e.2, e.1)
      else if d.clk h.domain = d.clk e.1 then (d.ltOfSc h.domain e.2, h.domain)
      else (d.ltAfter h.domain ((d.dom (d.clk e.1)).usOfSc e.2), h.domain)
    | none => (d.ltOfSc e.1 e.2, e.1)
  | l =>
    let us := l.map (fun e => (d.dom (d.clk e.1)).usOfSc e.2)
    let last := us.foldl (fun a u => if a < u then u else a) (us.headD 0)
    (d.ltAfter d.tb.master last, d.tb.master)

/-- The command's effect is committed: DONE with its status, RESULT and effective line-time (R119). -/
def Dev.complete (d : Dev) (n : Nat) : Dev :=
  let t := d.tag n
  let l := d.ltDone t
  (d.setTag n { t with ltDom := l.2 }).finish n t.rstatus l.1 t.result

/-- Keep a RESULT for the tag's completion. -/
def Dev.setResult (d : Dev) (n v : Nat) : Dev := d.updTag n (fun t => { t with result := v % 2 ^ 64 })

/-- Complete at once with a RESULT, in a domain's line-time now. -/
def Dev.completeNow (d : Dev) (n status dm result : Nat) : Dev :=
  (d.updTag n (fun t => { t with ltDom := dm })).finish n status (d.ltNow dm) result

/-! ### What commands are aimed at, and cancelling (R123) -/

/-- A function instance that a command is aimed at (R123), a channel's pilot among them, or a domain (R418). -/
inductive Inst where
  | chan (n : Nat)
  | obj (o : Nat)
  | port (p : Nat)
  | ring (k : Nat)
  | chain (c : Nat)
  | dom (n : Nat)
  | pilot (n : Nat)
deriving DecidableEq, Repr

/-- The CHMASK of a command, 0 without one. -/
def Cmd.chmask : Cmd → Nat
  | .chEnable m .. | .chVolume m .. | .chMute m .. | .chLoop m .. | .chCarrier m .. | .chZcto m .. => m
  | .chStatus ch => 2 ^ ch
  | .chBridge p => (maskList 24 p).foldl (fun a k => a + 3 * 4 ^ k) 0
  | .protProfile m .. | .protThermal m .. | .protTs m .. | .protLimits m .. => m
  | .diagRun m .. | .diagTones m .. | .pilot m .. | .acoustic m .. => m
  | .envSet m .. | .envUnlock m .. => m
  | .ocLimits m .. | .dcLimits m .. | .faultClear m | .faultCounters m => m
  | _ => 0

/-- The command is aimed at an instance. -/
def Cmd.aims (c : Cmd) (i : Inst) : Bool :=
  match i with
  | .chan n => bit (Cmd.chmask c) n
  | .obj o => match c with
    | .objSource x .. | .objPosition x .. | .objBulkdelay x .. | .objBasic x => x = o
    | .ctxWrite _ es => es.any (fun e => e.ctx / 48 = o)
    | _ => false
  | .port p => match c with
    | .portPreset x .. | .portFormat x .. | .portEnable x .. | .portMask x .. | .portSlip x .. | .portRoute x .. => x = p
    | _ => false
  | .ring k => match c with
    | .ringSetup x _ | .ringDestroy x => x = k
    | .measBind x | .mdtExport _ _ _ x | .sceneConfig _ _ _ x => x = k
    | _ => false
  | .chain n => match c with
    | .decPreset m _ | .decFir m .. | .decSwap m | .decDcblock m .. => bit m n
    | _ => false
  | .pilot n => match c with
    | .pilot m .. => bit m n
    | _ => false
  | .dom n => match c with
    | .tbRate x .. | .tbEnable x _ | .tbTiming x .. | .tbDpll x _ | .sceneConfig x .. => x = n
    | _ => false

/-- The tag is ACTIVE and nothing of its effect is committed (R138). -/
def Tag.uncommitted (t : Tag) : Bool :=
  t.st = .active && (t.ph = .waiting || t.ph = .sched) && t.done.isEmpty

/-- Cancel the uncommitted commands that a condition picks, but `self`, in acceptance order (R123 step 1). -/
def Dev.cancelTags (d : Dev) (self : Nat) (p : Tag → Bool) : Dev × Nat :=
  let l := (d.tagsInOrder (fun t => t.uncommitted && p t)).filter (· ≠ self)
  (d.forEach l (fun n d => d.fail n CANCELLED), l.length)

/-- The tag's command is aimed at one of some instances. -/
def Tag.aims (t : Tag) (is : List Inst) : Bool :=
  match t.cmd with | some c => is.any (Cmd.aims c) | none => false

/-- Instances whose disable is under way: a command aimed at one of them is cancelled from acceptance on (R123). -/
def Cmd.disables : Cmd → List Inst
  | .chEnable m en _ => if en = 0 then (chList m).map Inst.chan else []
  | .objSource o src .. => if src = 0 then [.obj o] else []
  | .portEnable p en .. => if en = 0 then [.port p] else []
  | .ringDestroy k => [.ring k]
  | .tbEnable n en => if en = 0 then [.dom n] else []
  | .pilot m en _ _ => if en = 0 then (chList m).map Inst.pilot else []
  | _ => []

/-- A disable that is ACTIVE covers an instance this command is aimed at. -/
def Dev.swept (d : Dev) (self : Nat) (c : Cmd) : Option Nat :=
  ((d.tags.filter (fun e => e.1 ≠ self && e.2.st = .active &&
    (match e.2.cmd with
     | some o => (Cmd.disables o).any (Cmd.aims c)
     | none => false))).head?).map (·.1)

/-- Count one more command cancelled by a disable. -/
def Dev.countCancel (d : Dev) (n k : Nat) : Dev :=
  d.updTag n (fun t => { t with cancels := satAdd 65535 t.cancels k })

/-- RESULT of a disable (R123 step 5). -/
def Tag.disResult (t : Tag) : Nat := t.cancels + t.zctos * 2 ^ 16 + t.reqs * 2 ^ 32

/-- A disable ends once the requests of its rings have (R123 step 3): OK, its RESULT, and the line-time of the first silent
sample in domain `dm` (R123 step 5). -/
def Dev.endDisable (d : Dev) (n dm lt : Nat) : Dev :=
  let t := d.tag n
  if d.trn.reads.any (fun x => t.dma.contains x.stream && !x.taken) then d.setTag n { t with ltDom := dm, endLt := some lt }
  else (d.setTag n { t with ltDom := dm }).finish n OK lt t.disResult

/-- Disables that waited only for requests to end complete where the last has ended (R123 step 3). -/
def Dev.dmaEnds (d : Dev) : Dev :=
  d.forEach (d.tagsInOrder (fun t => t.st = .active && t.endLt.isSome)) (fun n d =>
    let t := d.tag n
    d.endDisable n t.ltDom (t.endLt.getD 0))

/-- A request on ring `k` ended by timeout counts for the disables that wait for it (R123 step 5). -/
def Dev.countReq (d : Dev) (k : Nat) : Dev :=
  { d with tags := Tab.mapAll (fun (_ : Nat) (t : Tag) =>
      if t.st = TagSt.active && t.ph = TagPh.ending && t.dma.contains k then { t with reqs := satInc 65535 t.reqs } else t) d.tags }

end Sys2Proof.Machine
end

