-- ==== Sys2Proof/Machine/Numbers.lean ====
section
/-! DEFINITION. Arithmetic of the signal path: raised cosines, decibels and roots to fixed precision (log entry 6),
and the ramps of the gain layers (R222). -/

namespace Sys2Proof.Machine

/-- π to fifteen digits (log entry 6). -/
def piQ : Rat := 3141592653589793 / 1000000000000000
/-- ln 2 to fifteen digits. -/
def ln2Q : Rat := 693147180559945 / 1000000000000000

/-- A fraction rounded to a multiple of 2^-40, ties upwards (log entry 6). -/
def roundQ (x : Rat) : Rat := ((x * 2 ^ 40 + 1 / 2).floor : Int) / (2 ^ 40 : Nat)

/-- The nearest whole number, ties upwards. -/
def roundI (x : Rat) : Int := (x + 1 / 2).floor

/-- Absolute value. -/
def absQ (x : Rat) : Rat := if x < 0 then -x else x
/-- Smaller of two. -/
def minQ (a b : Rat) : Rat := if a < b then a else b
/-- Larger of two. -/
def maxQ (a b : Rat) : Rat := if a < b then b else a
/-- Kept within bounds. -/
def clampQ (lo hi x : Rat) : Rat := if x < lo then lo else if hi < x then hi else x

/-- Sum of a list. -/
def sumQ (l : List Rat) : Rat := l.foldl (· + ·) 0
/-- Mean of a list, zero of none. -/
def meanQ (l : List Rat) : Rat := if l.isEmpty then 0 else sumQ l / (l.length : Rat)
/-- Largest of a list of numbers that are not negative. -/
def maxOf (l : List Rat) : Rat := l.foldl maxQ 0

/-- Cosine of an angle of at most π in magnitude, by twelve terms of its series. -/
def cosQ (x : Rat) : Rat :=
  let y := x * x
  roundQ ((List.range 12).foldr (fun k acc => 1 - y * acc / ((2 * k + 1) * (2 * k + 2) : Nat)) 1)

/-- Sine of an angle of at most π in magnitude. -/
def sinQ (x : Rat) : Rat :=
  let y := x * x
  roundQ (x * (List.range 12).foldr (fun k acc => 1 - y * acc / ((2 * k + 2) * (2 * k + 3) : Nat)) 1)

/-- Square root of a fraction, to a multiple of 2^-40 (downwards). -/
def sqrtQ (x : Rat) : Rat :=
  if x ≤ 0 then 0 else
  let n := (x * 2 ^ 80).floor.toNat
  let r := (List.range 64).foldl (fun r k => let c := r + 2 ^ (63 - k); if c * c ≤ n then c else r) 0
  (r : Rat) / (2 ^ 40 : Nat)

/-- Arc tangent of a ratio between 0 and 1, in radians: the argument halved twice, then sixteen terms of its series. -/
def atanQ (x : Rat) : Rat :=
  let half := fun (x : Rat) => x / (1 + sqrtQ (1 + x * x))
  let y := half (half x)
  4 * y * (List.range 16).foldr (fun k acc => 1 / ((2 * k + 1 : Nat) : Rat) - y * y * acc) 0

/-- Argument of a complex number in degrees, above −180 up to 180; 0 of zero. -/
def argDeg (re im : Rat) : Rat :=
  if re = 0 ∧ im = 0 then 0 else
  let a := absQ re
  let b := absQ im
  let t := (if b ≤ a then atanQ (b / a) else piQ / 2 - atanQ (a / b)) * 180 / piQ
  let t := if re < 0 then 180 - t else t
  roundQ (if im < 0 then -t else t)

/-- e^x for x between 0 and 1, by its series. -/
def expFrac (x : Rat) : Rat := (List.range 18).foldr (fun k acc => 1 + x * acc / (k + 1 : Nat)) 1

/-- 2 to a fractional power. -/
def exp2Q (x : Rat) : Rat :=
  let n := x.floor
  let f := expFrac ((x - n) * ln2Q)
  roundQ (if 0 ≤ n then f * 2 ^ n.toNat else f / 2 ^ (-n).toNat)

/-- e^x. -/
def expQ (x : Rat) : Rat := exp2Q (x / ln2Q)

/-- Linear gain of a level in 1/256 dB. -/
def dbGain (v : Rat) : Rat := exp2Q (v / 256 * (166096404744368 / 1000000000000000))

/-- A gain between 0 and 1 in 1/256 dB, rounded towards zero attenuation; −144 dB and less read as −144 dB. -/
def gainDb (g : Rat) : Int :=
  (List.range 16).foldl (fun (r : Int) (k : Nat) =>
    let c : Int := r - 2 ^ (15 - k)
    if decide (-36864 ≤ c) && decide (g ≤ dbGain (c : Rat)) then c else r) 0

/-! ### Ramps of the gain layers (R222) -/

/-- Value of a ramp `p` samples after its start. -/
def Ramp.at (r : Ramp) (p : Nat) : Rat :=
  if r.len ≤ p then r.dst
  else
    let x : Rat := (p : Rat) / (r.len : Rat)
    let w := if r.cos then (1 - cosQ (piQ * x)) / 2 else x
    r.src + (r.dst - r.src) * w

/-- The values of the next `n` samples: those before the effective sample of the ramp, then the ramp's own. -/
def Ramp.samples (r : Ramp) (n : Nat) : List Rat :=
  r.pre.take n ++ (List.range (n - r.pre.length)).map (fun k => r.at (r.pos + k + 1))

/-- Start a ramp to a value over `len` samples, `skip` samples into the coming block, from the value that a ramp of the
layer still running has reached there. -/
def Ramp.go (r : Ramp) (dst : Rat) (len : Nat) (cos : Bool) (skip : Nat) : Ramp :=
  let pre := r.samples skip
  { val := r.val, src := (pre.getLast?).getD r.val, dst := dst, len := len, pos := 0, cos := cos, pre := pre }

/-- No ramp is running. -/
def Ramp.still (r : Ramp) : Bool := r.pre.isEmpty && decide (r.len ≤ r.pos) && r.val = r.dst

/-- The ramp `n` samples on. -/
def Ramp.step (r : Ramp) (n : Nat) : Ramp :=
  let v := ((r.samples n).getLast?).getD r.val
  let p := r.pos + (n - r.pre.length)
  if n ≤ r.pre.length then { r with val := v, pre := r.pre.drop n }
  else if r.len ≤ p then { r with val := v, src := v, pos := 0, len := 0, pre := [] }
  else { r with val := v, pos := p, pre := [] }

end Sys2Proof.Machine
end

