-- ==== Sys2Proof/Machine/Contexts.lean ====
section
/-! DEFINITION. Render contexts: liveness, cost and reservation (R163, R182, R183), targets and parking (R172, R180),
the positions and panning laws of the basic level (R176–R178), and the plan pass (R184–R186). -/

namespace Sys2Proof.Machine

/-- The channel counts as disabled for R163: from DISABLED, which ends its disable, to its next enable (R220), or as the
partner of a bridged pair (R224). -/
def Dev.outOff (d : Dev) (n : Nat) : Bool :=
  (d.chan n).off || (n % 2 = 1 && (d.pr (n / 2)).bridged)

/-- Context `o`, `n` is live (R163). -/
def Dev.liveCtx (d : Dev) (o n : Nat) : Bool :=
  let od := (d.obj o).dom
  let cd := (d.chan n).dom
  (d.obj o).src ≠ 0 && (od = cd || (d.tb.pair && od < 2 && cd < 2))

/-- Block length S of the object's domain: 64 at double rate, with every cost (R187). -/
def Dev.objS (d : Dev) (o : Nat) : Nat := (d.dom (d.clk (d.obj o).dom)).blk

/-- Steady cost of a context with given settings (R182). -/
def steady (S taps : Nat) (shape : Option Nat) : Nat := S * (taps + (if shape.isSome then 64 else 0) + 1)

/-- Steady cost at the settings in force or pending, whichever is more (R183). -/
def Ctx.cost (c : Ctx) (S : Nat) : Nat := max (steady S c.taps c.shape) (steady S c.tapsT c.shapeT)

/-- The objects that have a source. -/
def Dev.sourced (d : Dev) : List Nat := (d.objs.filter (fun p => p.2.src ≠ 0)).map (·.1)

/-- The live contexts of an object. -/
def Dev.liveOf (d : Dev) (o : Nat) : List Nat :=
  ((List.range 48).filter (fun n => d.liveCtx o n)).map (fun n => o * 48 + n)

/-- The render reservation as it stands (R183). -/
def Dev.resvNow (d : Dev) : Nat :=
  (d.sourced.map (fun o => ((d.liveOf o).map (fun c => (d.ctx c).cost (d.objS o))).sum)).sum

/-- A live context that is held parked: its output is disabled, or an error or a bad shape parked it (R64, R163), after the
block that ramps to silence. -/
def Dev.heldCtx (d : Dev) (c : Nat) : Bool :=
  let x := d.ctx c
  let bad : Bool := match x.shapeT with | some k => (d.shape k).bad | none => false
  d.outOff (c % 48) || ((x.fault || bad) && !x.fade)

/-! ### Targets (R166, R172, R180) -/

/-- The largest delay target within reach of the delay line in the local regime, in 1/64 sample (R166). -/
def reachMax (S taps bulk : Nat) : Nat := min 131071 ((2048 + S - taps / 2 - bulk) * 64 + 63)

/-- Limit the delay target to the reach, counted (R166). -/
def Dev.limitReach (d : Dev) (c : Nat) : Dev :=
  let o := d.obj (c / 48)
  let x := d.ctx c
  let m := reachMax (d.objS (c / 48)) x.tapsT o.bulk
  if !o.ringReg && !o.noReg && decide (m < x.delayT) then
    d.setCtx c { x with delayT := m, reach := satInc 65535 x.reach } else d

/-- Blocks that a delay ramp needs at no more than S/2 samples per block (R172). -/
def Ctx.glide (x : Ctx) (S : Nat) : Nat :=
  let dist := absQ ((x.delayT : Rat) / 64 - x.delay)
  max x.ramp (Rat.ceil (dist / ((S : Rat) / 2))).toNat

/-- Whether the context has something to plan (R182); a parked one only an unpark. -/
def Ctx.work (x : Ctx) : Bool :=
  if x.parked then x.gainT ≠ 0
  else x.pend || decide (0 < x.left) || decide (0 < x.leftD) || x.taps ≠ x.tapsT || x.shape ≠ x.shapeT

/-- A parked context takes delay, taps and shape at once; one with target 0 has nothing to plan (R173, R180). -/
def Ctx.settle (x : Ctx) : Ctx :=
  { x with gain := 0, delay := (x.delayT : Rat) / 64, taps := x.tapsT, shape := x.shapeT, leftD := 0, old := none,
           left := if x.gainT = 0 then 0 else x.ramp, pend := x.gainT ≠ 0, parked := true, planned := false }

/-- New targets take effect in a context (R145, R172, R180): one that is not live, held or still parked at target 0
stores them. -/
def Dev.target (d : Dev) (c : Nat) (e : CtxEntry) : Dev :=
  let S := d.objS (c / 48)
  let x := d.ctx c
  let x := { x with ramp := e.ramp,
                    tapsT := if bit e.valid 3 then e.taps else x.tapsT,
                    shapeT := if bit e.valid 2 then (if e.shape = 0xFFFF then none else some e.shape) else x.shapeT,
                    gainT := if bit e.valid 0 then e.gain else x.gainT,
                    delayT := if bit e.valid 1 then e.delay else x.delayT,
                    fault := false, pend := true }
  let want := x.delayT
  let d := if (d.ctx c).fault then d.closing 0x010D 3 else d
  let d := (d.setCtx c x).limitReach c
  let x := d.ctx c
  let x := { x with left := if bit e.valid 0 then e.ramp else x.left,
                    leftD := if bit e.valid 1 || x.delayT ≠ want then x.glide S else x.leftD }
  d.setCtx c (if x.parked then x.settle else x)

/-- Clear the counters of an object: CARRY and REACH_LIMIT of its contexts, and BUS_CLIP of the outputs that it feeds (R186;
log entry 68). -/
def Dev.clearCounts (d : Dev) (o : Nat) : Dev :=
  let d := { d with ctxs := Tab.mapAll (fun (c : Nat) (x : Ctx) => if c / 48 = o then { x with carry := 0, reach := 0, reachWas := 0 } else x) d.ctxs }
  d.forEach (d.liveOf o) (fun c d => d.updChan (c % 48) (fun x => { x with busClip := 0 }))

/-- Contexts that are held parked, those whose object and output are of different domains among them, stand parked; when the
hold ends their gain ramps up from 0 (R30, R163, R180). -/
def Dev.holdCtx (d : Dev) (c : Nat) : Dev :=
  let x := d.ctx c
  if (d.heldCtx c || !d.liveCtx (c / 48) (c % 48)) && !x.parked then d.setCtx c x.settle else d

/-- A context counts as parked: it is, or it is held so by R30. -/
def Dev.isParked (d : Dev) (c : Nat) : Bool := (d.ctx c).parked || !d.liveCtx (c / 48) (c % 48)

/-! ### The basic level (R176–R178) -/

/-- Render, loop and decimation engines run: not in SLEEP, nor before its exit ends (R378, R379). -/
def Dev.engines (d : Dev) : Bool := d.sys.pstate ≠ 2 && d.sys.pstate ≠ 4

/-- The domain renders: enabled, its line-time set, its engine not asleep (R25, R378). -/
def Dev.renders (d : Dev) (r : Nat) : Bool :=
  (d.dom r).st ≠ .disabled && (d.dom (d.clk r)).ltSet && d.engines

/-- Basic ramp length in blocks (R178). -/
def basicRamp (rate : Nat) : Nat :=
  match rate with
  | 0 => 30 | 1 | 2 => 25 | 3 => 15 | _ => 12

/-- Gain of a panning law for an offset in 0.1 mm and PARAM in mm (R177). -/
def panGain (law param : Nat) (dx dy : Int) : Rat :=
  let p : Rat := (10 * param : Nat)
  let a : Rat := (dx : Rat) / p
  let b : Rat := (dy : Rat) / p
  match law with
  | 0 => if -1 / 2 ≤ a ∧ a < 1 / 2 ∧ -1 / 2 ≤ b ∧ b < 1 / 2 then 1 else 0
  | 1 => sqrtQ (maxQ 0 (1 - absQ a) * maxQ 0 (1 - absQ b))
  | 2 => let rho := sqrtQ (a * a + b * b)
         if rho < 1 then cosQ (piQ * rho / 2) else 0
  | _ => sqrtQ (maxQ 0 (1 - maxQ (absQ a) (maxQ (absQ b) (absQ (a - b)))))

/-- The output's geometry entry. -/
def Dev.place (d : Dev) (n : Nat) : Point := (d.geo[n]?).getD ⟨0, 0, 0⟩

/-- Delay in 1/64 sample and Q2.22 gain of output `n` for a position and a gain (R176), and whether the delay was
clamped. -/
def Dev.basicOne (d : Dev) (o : Nat) (x y z gain : Int) (n : Nat) : Nat × Nat × Bool :=
  let g := d.place n
  let dx := x - g.x
  let dy := y - g.y
  let dz := z - g.z
  let fs := (d.dom (d.clk (d.obj o).dom)).fs
  let dist := sqrtQ ((dx * dx + dy * dy + dz * dz : Int) : Rat)
  let del := (roundI (dist * (fs * 64 : Nat) / 3430000)).toNat
  let lin := if gain = -32768 then 0 else panGain d.rend.law d.rend.param dx dy * dbGain (gain : Rat)
  (min del 131071, min 0xFFFFFF (roundI (lin * 4194304)).toNat, decide (131071 < del))

/-- Recompute the 48 contexts of an object from a position (R176, R178, R179). -/
def Dev.basicAt (d : Dev) (o : Nat) (x y z gain : Int) : Dev :=
  let ramp := basicRamp (d.dom (d.clk (d.obj o).dom)).rate
  d.forEach (List.range 48) (fun n d =>
    let v := d.basicOne o x y z gain n
    let c := o * 48 + n
    let d := d.target c { ctx := c, valid := 15, taps := 24, gain := v.2.1, delay := v.1, shape := 0xFFFF, ramp := ramp }
    if v.2.2 then d.updCtx c (fun x => { x with reach := satInc 65535 x.reach }) else d)

/-- The same from the stored position: once for a block boundary, so that a second cause at the same one replaces the first
computation with what it counted as REACH_LIMIT (R188). -/
def Dev.basicObj (d : Dev) (o : Nat) : Dev :=
  let s := d.obj o
  let b := (d.dom s.dom).nextBlk
  let again : Bool := d.renders s.dom && s.basicAt = some b
  let d := d.forEach ((List.range 48).map (fun n => o * 48 + n)) (fun c d => d.updCtx c (fun x =>
    if again then { x with reach := x.reachWas } else { x with reachWas := x.reach }))
  (d.updObj o (fun a => { a with basicAt := some b })).basicAt o s.x s.y s.z s.gain

/-- Objects at the BASIC level; their contexts are recomputed when geometry or law change (R178). -/
def Dev.basicObjs (d : Dev) : List Nat := (List.range 256).filter (fun o => !(d.obj o).expert)

/-! ### The render reservation (R183) -/

/-- A new source, as OBJ_SOURCE puts it in place. -/
def Dev.bindSrc (d : Dev) (o src dom bind prio start : Nat) : Dev :=
  let a := d.obj o
  let same : Bool := a.src = src && a.bind = bind
  let a := { a with src := src, dom := dom, bind := bind, prio := prio }
  let a := if same then a
    else { a with staged := [], lastSc := none, played := false, present := false, lastEnd := false, tdmIn := [],
                  startSc := start, stopped := false }
  d.setObj o a

/-- All entries of a CTX_WRITE, in their order, to some objects' contexts (R145, R179, R186). -/
def Dev.writeCtxs (d : Dev) (es : List CtxEntry) : Dev :=
  let d := es.foldl (fun d (e : CtxEntry) =>
    (d.updObj (e.ctx / 48) (fun a => { a with expert := true })).clearCounts (e.ctx / 48)) d
  es.foldl (fun d (e : CtxEntry) => d.target e.ctx e) d

/-- Channels that share a hold: the pair where it is bridged, else the channel alone (R224). -/
def Dev.mates (d : Dev) (n : Nat) : List Nat :=
  if (d.pr (n / 2)).bridged then [n / 2 * 2, n / 2 * 2 + 1] else [n]

/-- The channels of a mask with the partners of bridged primaries (R224). -/
def Dev.withMates (d : Dev) (mask : Nat) : List Nat := ((chList mask).map d.mates).flatten

/-- The device with the channels of a mask in a domain, for the render reservation (R163, R183). -/
def Dev.inDomain (d : Dev) (mask dom : Nat) : Dev :=
  d.forEach (d.withMates mask) (fun n d => d.updChan n (fun c => { c with dom := dom }))

/-- The device with the render settings that a command brings (R183). -/
def Dev.bookStep (d : Dev) (c : Cmd) : Dev :=
  match c with
  | .objSource o s dm b p => if s = 0 then d else d.bindSrc o s dm b p 0
  | .ctxWrite _ es => d.writeCtxs es
  | .objBasic o => d.basicObj o
  | .chEnable m e dm => if e = 1 then d.inDomain m dm else d
  | _ => d

/-- The device now, and after each accepted command in turn that has not taken effect in full. -/
def Dev.bookViews (d : Dev) : List Dev :=
  let ns := d.tagsInOrder (fun t => t.st = .active && t.ph ≠ .waiting && !t.effs.isEmpty)
  (ns.filterMap (fun n => (d.tag n).cmd)).foldl (fun l c => l ++ [((l.getLast?).getD d).bookStep c]) [d]

/-- The reservation that covers some views, in whatever order they come true: each context that may be live at the most
expensive of its settings (R183). -/
def bookOf (l : List Dev) : Nat :=
  let pair := l.any (fun d => d.tb.pair)
  ((l.flatMap Dev.sourced).eraseDups.map (fun o =>
    let od := (l.filter (fun d => (d.obj o).src ≠ 0)).map (fun d => (d.obj o).dom)
    ((List.range 48).map (fun n =>
      let cd := l.map (fun d => (d.chan n).dom)
      let live : Bool := od.any (fun r => cd.contains r) || (pair && od.any (fun r => decide (r < 2)) && cd.any (fun r => decide (r < 2)))
      if live then (l.map (fun d => (d.ctx (48 * o + n)).cost (d.objS o))).foldl max 0 else 0)).sum)).sum

/-- The render reservation: what is in force or pending, and what accepted commands have taken (R183). -/
def Dev.reservation (d : Dev) : Nat := bookOf d.bookViews

/-- A growth of the book would take it above the cap of 38,400,000 (R183). -/
def bookOver (was now : Nat) : Bool := decide (was < now) && decide (38400000 < now)

/-- The increase that a command brings would take the reservation above the cap (R183). -/
def Dev.overCap (d : Dev) (c : Cmd) : Bool :=
  let v := d.bookViews
  bookOver (bookOf v) (bookOf (v ++ [((v.getLast?).getD d).bookStep c]))

/-- The same of a change of the timebase, which acts at once. -/
def Dev.overCapBy (d : Dev) (f : Dev → Dev) : Bool :=
  let v := d.bookViews
  bookOver (bookOf v) (bookOf (v.map f))

/-! ### A context through a block (R172, R173, R180) -/

/-- Gain of each sample of a block: the next step of the ramp where it is planned, else held (R172, R185). -/
def Ctx.gains (x : Ctx) (S : Nat) : List Rat :=
  let t : Rat := (x.gainT : Rat) / 4194304
  let stp : Rat := if x.planned && decide (0 < x.left) then (t - x.gain) / ((x.left * S : Nat) : Rat) else 0
  (List.range S).map (fun k => x.gain + stp * ((k + 1 : Nat) : Rat))

/-- Delay of each sample of a block, to 1/64 sample (R172). -/
def Ctx.delays (x : Ctx) (S : Nat) : List Rat :=
  let t : Rat := (x.delayT : Rat) / 64
  let stp : Rat := if x.planned && decide (0 < x.leftD) then (t - x.delay) / ((x.leftD * S : Nat) : Rat) else 0
  (List.range S).map (fun k => (roundI ((x.delay + stp * ((k + 1 : Nat) : Rat)) * 64) : Rat) / 64)

/-- The context at the end of a block: its ramps one block on; parked when gain and target are 0, with nothing left to plan
(R172, R180). -/
def Ctx.after (x : Ctx) : Ctx :=
  if !x.planned then { x with old := none }
  else
    let t : Rat := (x.gainT : Rat) / 4194304
    let td : Rat := (x.delayT : Rat) / 64
    let g := if x.left = 0 then x.gain else if x.left = 1 then t else x.gain + (t - x.gain) / (x.left : Rat)
    let dl := if x.leftD = 0 then x.delay else if x.leftD = 1 then td else x.delay + (td - x.delay) / (x.leftD : Rat)
    let park : Bool := x.parked || (x.gainT = 0 && g = 0)
    { x with gain := g, delay := if park then td else dl, left := if park then 0 else x.left - 1,
             leftD := if park then 0 else x.leftD - 1, old := none, firOld := [], planned := false, parked := park }

/-! ### The plan pass (R184–R186) -/

/-- Contexts of the rendering domains that are live. -/
def Dev.liveAll (d : Dev) : List Nat :=
  (d.sourced.filter (fun o => d.renders (d.obj o).dom)).flatMap (fun o => d.liveOf o)

/-- Transition work of a context (R182). -/
def Ctx.transition (x : Ctx) (S : Nat) : Nat :=
  if x.parked then (if x.gainT = 0 then 0 else steady S x.tapsT x.shapeT)
  else (if x.taps ≠ x.tapsT then S * x.taps else 0) + (if x.shape ≠ x.shapeT && x.shape.isSome then S * 64 else 0)

/-- Place of a context in the plan order: PRIO, the earlier block of a domain that renders two, carried first, number
(R184, R186). -/
def Dev.planKey (d : Dev) (c : Nat) (second : Bool) : Nat :=
  (d.obj (c / 48)).prio * 131072 + 65536 * b2n second + (if (d.ctx c).carried then 0 else 32768) + c

/-- A context's settings for its next block are set up (R172, R173, R180). -/
def Ctx.plan (x : Ctx) (b : Nat) : Ctx :=
  if x.parked then
    if x.gainT = 0 then { x with pend := false, planned := true }
    else { x with parked := false, planned := true, pend := false, gain := 0, delay := (x.delayT : Rat) / 64,
                  taps := x.tapsT, shape := x.shapeT, old := none, left := x.ramp, leftD := 0, born := b, fir := [],
                  firOld := [] }
  else
    let change : Bool := x.taps ≠ x.tapsT || x.shape ≠ x.shapeT
    { x with planned := true, pend := false, old := if change then some (x.taps, x.shape) else none, firOld := x.fir,
             taps := x.tapsT, shape := x.shapeT }

/-- MAC-slots in a period of the clock-master domain, and the guard (R184). -/
def budgetB : Nat := 42666666
/-- The stall guard G (R184). -/
def budgetG : Nat := 1066667

/-- The plan pass under way: slots used, transition work booked, carrying, contexts planned for a second block. -/
structure PlanSt where
  used : Nat
  booked : Nat
  carrying : Bool
  twice : List Nat

/-- One context of the plan pass; marked for the second block of a domain that renders two in the period, where `later` tells
how the context stands at its start. `b` gives the first sample of an object's next block. -/
def planOne (b : Nat → Nat) (later : Nat → Ctx) (steadyNext : Nat) (a : Dev × PlanSt) (e : Nat × Bool) : Dev × PlanSt :=
  let d := a.1
  let p := a.2
  let c := e.1
  let x := d.ctx c
  let t := (if e.2 then later c else x).transition (d.objS (c / 48))
  if p.carrying || decide (budgetB < p.used + 96) || decide (budgetB - budgetG < steadyNext + p.booked + t) then
    (d.setCtx c { x with carried := true, planned := x.planned && e.2, carry := satInc 65535 x.carry }, { p with carrying := true })
  else if e.2 then (d, { p with used := p.used + 96, booked := p.booked + t, twice := p.twice ++ [c] })
  else (d.setCtx c { x.plan (b (c / 48)) with carried := false }, { p with used := p.used + 96, booked := p.booked + t })

/-- Blocks that the object's domain renders in a period, at most two. -/
def Dev.turns (d : Dev) (ds : List Nat) (o : Nat) : Nat := min 2 ((ds.filter (· = (d.obj o).dom)).length)

/-- The contexts of the domains that render twice, as they will stand at the start of the second block with every one planned
for the first: `start` is what is due at a domain's render start (R184). -/
def Dev.secondView (d : Dev) (twice : List Nat) (start : Nat → Dev → Dev) : Dev :=
  let on := fun (c : Nat) => twice.contains (d.obj (c / 48)).dom
  let d := { d with ctxs := Tab.mapAll (fun (c : Nat) (x : Ctx) => if on c && !d.heldCtx c then (x.plan 0).after else x) d.ctxs }
  let d := d.forEach twice (fun r d => d.updDom r (fun m => { m with nextBlk := m.nextBlk + (d.dom (d.clk r)).blk }))
  d.forEach twice start

/-- The plan pass for the blocks of a period, `ds` their domains (R184–R186): contexts with plan work in plan order until
the budget is short; the later ones are carried. It answers the contexts planned for a second block too. The cost of the
block is the steady cost of what was unparked, at its settings in the block, and the booked transition work, which holds
the steady cost of the unparks. -/
def Dev.planPass (d : Dev) (ds : List Nat) (start : Nat → Dev → Dev) : Dev × List Nat :=
  let d := d.forEach (d.sourced.flatMap (fun o => (List.range 48).map (fun n => 48 * o + n))) (fun c d => d.holdCtx c)
  let live := d.liveAll.filter (fun c => d.turns ds (c / 48) ≠ 0)
  let two := live.filter (fun c => d.turns ds (c / 48) = 2)
  let d2 := if two.isEmpty then d else d.secondView (ds.filter (fun r => decide (1 < (ds.filter (· = r)).length))).eraseDups start
  let steadyNext := ((live.filter (fun c => !(d.ctx c).parked)).map (fun c =>
    d.turns ds (c / 48) * steady (d.objS (c / 48)) (d.ctx c).taps (d.ctx c).shape)).sum
  let todo := live.filter (fun c => !d.heldCtx c && (d.ctx c).work)
  let d := d.forEach (live.filter (fun c => !todo.contains c)) (fun c d =>
    if (d.ctx c).carried || (d.ctx c).planned then d.updCtx c (fun x => { x with carried := false, planned := false }) else d)
  let at_ : Nat → Nat := fun o => (d.dom (d.obj o).dom).nextBlk
  let l := todo.map (fun c => (c, false)) ++ (two.filter (fun c => !d2.heldCtx c && (d2.ctx c).work)).map (fun c => (c, true))
  let r := (sortBy (fun e => d.planKey e.1 e.2) l).foldl (planOne at_ d2.ctx steadyNext)
    (d, { used := d.rend.used, booked := 0, carrying := false, twice := [] })
  let n := (live.filter (fun c => (r.1.ctx c).carried)).length
  let cost := ((live.filter (fun c => !(d.ctx c).parked)).map (fun c =>
    d.turns ds (c / 48) * steady (d.objS (c / 48)) (r.1.ctx c).taps (r.1.ctx c).shape)).sum + r.2.booked
  ({ r.1 with rend := { r.1.rend with used := cost, booked := r.2.booked, carriedMax := max r.1.rend.carriedMax n } }, r.2.twice)

end Sys2Proof.Machine
end

