-- ==== Sys2Proof/Machine/Channel.lean ====
section
/-! DEFINITION. Channels: the emergency layer (R276–R278), holds (R15, R220), the channel states and their sequencing
(R220, R221), disabling (R123), shutdown, retry, probe and latch (R267–R269, R275). -/

namespace Sys2Proof.Machine

/-! ### The emergency layer (R276–R278) -/

/-- A ramp setting in 0.1 ms, clamped to 1–1,000 (R278). -/
def ramp01 (v : Nat) : Nat := if v = 0 then 1 else if 1000 < v then 1000 else v

/-- The pin source asserts: the pin, or the latch that holds it (R277). -/
def Emg.pinOn (e : Emg) : Bool := e.verm || e.pinHeld
/-- Some source asserts (R276). -/
def Emg.any (e : Emg) : Bool := e.pinOn || e.mute || e.cmdSet
/-- An asserted source is hard (R276). -/
def Emg.hardOn (e : Emg) : Bool := (e.pinOn && e.pinHard) || (e.mute && e.hard) || (e.cmdSet && e.cmdHard)

/-- Shortest ramp among the asserted sources, in 0.1 ms (R276). -/
def Emg.shortest (e : Emg) : Nat :=
  let a := if e.pinOn then ramp01 e.pinRamp else 1001
  let b := if e.mute then ramp01 e.ramp else 1001
  let c := if e.cmdSet then ramp01 e.cmdRamp else 1001
  min a (min b c)

/-- The layer's gain at an uptime: a raised cosine from the value reached (R222, R276). -/
def Emg.value (e : Emg) (now : Nat) : Rat :=
  let goal : Rat := if e.down then 0 else 1
  let t := now - e.rampAt
  if e.rampLen ≤ t then goal
  else
    let w := (1 - cosQ (piQ * ((t : Rat) / (e.rampLen : Rat)))) / 2
    e.ramp0 + (goal - e.ramp0) * w

/-- EMG_STAT.ACTIVE: the layer is below unity, or a hard source asserts (R278). -/
def Emg.isActive (e : Emg) (now : Nat) : Bool := e.any || e.hardOn || decide (e.value now < 1)

/-- Start the layer's ramp anew from the value reached (R276). -/
def Emg.restart (e : Emg) (now len01 : Nat) : Emg :=
  { e with ramp0 := e.value now, level := e.value now, rampAt := now, rampLen := 100 * len01, down := e.any }

/-- INT_CAUSE.EMG of both functions follows every change of ACTIVE (R407). -/
def Dev.emgSync (d : Dev) : Dev :=
  let a := d.emg.isActive d.sys.uptime
  if a = d.emg.active then d
  else (({ d with emg := { d.emg with active := a } }).setCause 0 3).setCause 1 3

/-! ### Holds (R15, R220) -/

/-- A power-die shutdown in the sense of R15 holds the channel: its die, its pair sensor, a lost reference, or the
power state (R272, R273, R377, R378). -/
def Dev.dieHold (d : Dev) (n : Nat) : Bool :=
  let k := d.die (dieOf n)
  k.thermal || k.pvdd || k.iso || (d.pr (n / 2)).sensor || d.sys.refHold || d.sys.pHold

/-- A hold is present: Sepia, power-die shutdown or hard emergency (R220), on either channel of a bridged pair. -/
def Dev.held (d : Dev) (n : Nat) : Bool :=
  d.fz.hold || d.emg.hardOn || (d.mates n).any (fun m => d.dieHold m)

/-! ### States (R220) -/

/-- A ramp that stands at zero. -/
def Ramp.zero : Ramp := { Ramp.reset with val := 0, src := 0, dst := 0 }

/-- Transistors of the channel may be on. -/
def ChSt.on (s : ChSt) : Bool :=
  match s with
  | .softStart | .identify | .switching | .softStop => true
  | _ => false

/-- Change the fault part of a channel. -/
def Dev.updFlt (d : Dev) (n : Nat) (f : Flt → Flt) : Dev := d.updChan n (fun c => { c with flt := f c.flt })

/-- Interpolator and reference start anew where the transistors are off. -/
def Loop.quietRef (l : Loop) : Loop := { l with up := [], upQ := [], upPh := 0, ref := 0 }

/-- A counted outage of a channel has ended: its stage fault, or, with the last channel of the die, the isolator link
(R341). -/
def Dev.outageEnd (d : Dev) (n : Nat) : Dev :=
  let k := (d.chan n).outage
  if k = 0 then d
  else
    let d := d.updChan n (fun c => { c with outage := 0 })
    if k ≠ 0x0B09 then d.closing k n
    else if d.chans.any (fun p => dieOf p.1 = dieOf n && p.2.outage = k) then d
    else d.closing k (dieOf n)

/-- Enter a state. Outside SWITCHING the drive is closed, the shutdown counts are zero and
the pilot's window is lost (R220, R265, R298). -/
def Dev.enter (d : Dev) (n : Nat) (s : ChSt) : Dev :=
  (if s = .switching || s = .disabled then d.outageEnd n else d).updChan n (fun c =>
    let l := if s.on then c.loop else c.loop.quietRef
    let c := { c with st := s, since := d.sys.uptime, off := c.off || s = ChSt.disabled, loop := { l with idN := 0 } }
    match s with
    | .switching => { c with flt := { c.flt with cleanAt := some d.sys.uptime } }
    | _ => { c with drive := if s = ChSt.softStop then c.drive else Ramp.zero,
                    flt := { c.flt with cons := 0, times := [], cleanAt := none, dcAt := none },
                    diag := { c.diag with pilBad := true } })

/-- The tag's wait for a channel ends; with the last one it completes: a disable with its RESULT (R123), a CH_ENABLE
with its own (R141). -/
def Dev.waitDone (d : Dev) (tag n : Nat) : Dev :=
  let t := d.tag tag
  let w := t.waits &&& (2 ^ 48 - 1 - 2 ^ n)
  let d := d.setTag tag { t with waits := w }
  if w ≠ 0 || t.waits = 0 || !t.effs.isEmpty then d
  else if t.ph = .ending then
    let dm := (d.chan n).dom
    let dm := if (d.dom dm).st = .disabled then d.tb.master else dm
    d.endDisable tag dm (if d.renders dm then d.ltOfSc dm (d.dom dm).nextBlk else d.ltNow dm)
  else d.complete tag

/-- A CH_ENABLE no longer waits for this channel's identification. -/
def Dev.idRelease (d : Dev) (n : Nat) : Dev :=
  match (d.chan n).idTag with
  | some t => (d.updChan n (fun c => { c with idTag := none })).waitDone t n
  | none => d

/-- Every disable that waits for the channel's silence has it (R123 step 5). -/
def Dev.stopDone (d : Dev) (n : Nat) : Dev :=
  let ts := (d.chan n).stopTags
  let d := d.updChan n (fun c => { c with stop := .no, stopTags := [] })
  d.forEach ts (fun t d => d.waitDone t n)

/-- One of the disables under way is the channel's own (CH_ENABLE with EN = 0), not its domain's. -/
def Dev.ownStop (d : Dev) (n : Nat) : Bool :=
  (d.chan n).stopTags.any (fun t => match (d.tag t).cmd with | some (.chEnable ..) => true | _ => false)

/-- Start switching: the soft start, or HIZ while a hold is present (R220, R221). -/
def Dev.start (d : Dev) (n : Nat) (warm : Bool) : Dev :=
  if d.held n then d.enter n .hiz
  else (d.updChan n (fun c => { c with warm := warm, driveAt := none })).enter n .softStart

/-- Start a probe: the soft start with ILIM forced to 2.0 A (R267). -/
def Dev.probe (d : Dev) (n : Nat) (clear : Bool) : Dev :=
  d.forEach (d.mates n) (fun m d =>
    let d := d.updFlt m (fun f => { f with probe := 1, probeTrips := [], retryAt := none, byClear := clear })
    (d.updChan m (fun c => { c with warm := true, driveAt := none })).enter m .softStart)

/-- A hold ends for a channel in HIZ (R220, R268): a probe it broke off runs again, not counted; an enabled channel starts;
one whose soft stop it broke off is DISABLED (log entry 69). -/
def Dev.unhold (d : Dev) (n : Nat) : Dev :=
  let c := d.chan n
  if c.flt.retryAt.isSome then d.probe n c.flt.byClear
  else if c.enabled then d.start n true
  else d.enter n .disabled

/-- Apply the holds present to a channel (R220): switching channels go to HIZ, an identification is abandoned, a probe
runs again after the hold without being counted (R268), a disable that waits in SWITCHING ends; a channel in HIZ whose
last hold is gone goes on. -/
def Dev.holdChan (d : Dev) (n : Nat) : Dev :=
  let c := d.chan n
  if d.held n then
    if !c.st.on then d
    else if c.flt.probe ≠ 0 then
      (d.updFlt n (fun f => { f with probe := 0, probeTrips := [], retryAt := some d.sys.uptime })).enter n .hiz
    else if c.stop ≠ .no && d.ownStop n then ((d.enter n .disabled).idRelease n).stopDone n
    else ((d.enter n .hiz).idRelease n).stopDone n
  else if c.st = .hiz then d.unhold n
  else d

/-- Apply the holds present to every channel. -/
def Dev.holdAll (d : Dev) : Dev := d.forEach (List.range 48) (fun n d => d.holdChan n)

/-- Open the drive: 32 samples linear, or 2 ms raised cosine after a hold or a probe (R220, R267). After CH_ENABLE it opens
at the sample that R221 names; what is rendered before it is discarded. -/
def Dev.openDrive (d : Dev) (n : Nat) : Dev :=
  let c := d.chan n
  let S := (d.dom (d.clk c.dom)).blk
  let skip := match c.driveAt with
    | some s => s - (d.dom c.dom).nextBlk
    | none => 0
  (d.enter n .switching).updChan n (fun c =>
    { c with openAt := d.sys.uptime, driveAt := none, drive := Ramp.zero.go 1 (if c.warm then 3 * S else 32) c.warm skip })

/-! ### Events of channels -/

/-- An event about a channel, in its domain, with its Mordant record. -/
def Dev.chEvent (d : Dev) (n code data flags : Nat) : Dev := d.alarmIn (d.chan n).dom code n data flags 0

/-- Set FCODE and the line-time of the fault (R263, R129). -/
def Dev.fcode (d : Dev) (n code : Nat) : Dev :=
  let lt := d.ltNow (d.chan n).dom
  d.updChan n (fun c => { c with flt := { c.flt with code := code, lt := lt } })

/-- Latch a channel, and its partner when bridged (R269, R224). -/
def Dev.latch (d : Dev) (n code : Nat) : Dev :=
  d.forEach (d.mates n) (fun m d =>
    let d := (d.fcode m code).chEvent m 0x0B03 code 1
    let d := d.updFlt m (fun f => { f with
      latchOpen := true, probe := 0, probeTrips := [], retryAt := none, byClear := false })
    ((d.enter m .latched).idRelease m).stopDone m)

/-- What follows a shutdown (R268): latch, or wait for a retry. -/
def Dev.afterShutdown (d : Dev) (n code : Nat) : Dev :=
  let f := (d.chan n).flt
  let d := (d.fcode n code).updChan n (fun c => { c with diag := { c.diag with shut := if c.diag.ph = .run then some code else c.diag.shut } })
  if (d.die (dieOf n)).oc = 1 || (f.rlim ≠ 0 && decide (f.rlim ≤ f.retries)) then d.latch n code
  else
    d.forEach (d.mates n) (fun m d =>
      let d := d.fcode m code
      let d := d.updFlt m (fun g => { g with
        retryAt := some (d.sys.uptime + 10000 * f.tretry), probe := 0, probeTrips := [], byClear := false })
      ((d.enter m .retry).idRelease m).stopDone m)

/-- Rank of a channel's own fault among those of one update: OC, SHARE, EDGE, SENSE_OVERLOAD, DC (R281). -/
def faultRank (code : Nat) : Nat :=
  if code = 0x23 then 4 else if code = 0x22 then 3 else if code = 0x21 then 2 else if code = 0x30 then 1 else 5

/-- The channel was shut down in this very update, to the resolution of the uptime: other faults of the update may follow
(R281; log entry 70). -/
def Dev.justShut (d : Dev) (n : Nat) : Bool := ((d.chan n).st = .retry || (d.chan n).st = .latched) && (d.chan n).flt.shutAt = some d.sys.uptime

/-- A stage fault that counts as an outage opens one: SENSE_OVERLOAD and EDGE (R341). -/
def Dev.outageBegin (d : Dev) (n code : Nat) : Dev :=
  let k := if code = 0x21 then 0x0B0D else if code = 0x22 then 0x0B08 else if code = 0x52 then 0x0B09 else 0
  if k = 0 then d else d.updChan n (fun c => { c with outage := k })

/-- A stage fault or OC shutdown (R263, R281): its event and record always; the action only for a channel that no
fault holds already. Of several in one update the highest gives the code. -/
def Dev.shutdown (d : Dev) (n code event data : Nat) : Dev :=
  let d := d.chEvent n event data 0
  if (d.chan n).st.on then ((d.updFlt n (fun f => { f with shutAt := some d.sys.uptime })).outageBegin n code).afterShutdown n code
  else if d.justShut n && decide (faultRank (d.chan n).flt.code < faultRank code) then
    d.forEach (d.mates n) (fun m d => d.fcode m code)
  else d

/-- Short class of tripped cycles (R266): the first pattern that holds in enough of them. -/
def shortClass (l : List Trip) (enough : Nat) : Nat :=
  let cnt := fun (p : Trip → Bool) => (l.filter p).length
  let t2t := fun (t : Trip) => ((t.hiA && t.loB) || (t.hiB && t.loA)) && t.low && t.idx
  let gnd := fun (t : Trip) => (t.hiA || t.hiB) && !t.loA && !t.loB
  let pvd := fun (t : Trip) => (t.loA || t.loB) && !t.hiA && !t.hiB
  if l.length < enough then 3
  else if enough ≤ cnt t2t then 0 else if enough ≤ cnt gnd then 1 else if enough ≤ cnt pvd then 2 else 3

/-- A channel whose probe passed runs on, the identification first where it is due, or is DISABLED (R267, R275). -/
def Dev.probePass (d : Dev) (n : Nat) : Dev :=
  let c := d.chan n
  if !c.enabled then d.enter n .disabled
  else if c.firstId then d.enter n .identify
  else (d.updChan n (fun c => { c with warm := true })).openDrive n

/-- A probe ends (R267, R268, R275): OC_RETRY unless FAULT_CLEAR started it; passed, the channel runs; failed with a
class, it proceeds under R268. -/
def Dev.probeEnd (d : Dev) (n : Nat) (fail : Option Nat) : Dev :=
  let f := (d.chan n).flt
  let clear := f.byClear
  let passed := b2n fail.isNone
  let d := d.forEach (d.mates n) (fun m d => d.updFlt m (fun f => { f with probe := 0, probeTrips := [], byClear := false }))
  let d := if clear then d else d.chEvent n 0x0B02 (f.retries % 256 + 256 * passed) 0
  match fail with
  | none => d.forEach (d.mates n) (fun m d => d.probePass m)
  | some cls => d.afterShutdown n (0x10 + cls)

/-! ### Disabling (R123, R221) -/

/-- The channel's drive is silent: not switching, or its bus, layers 2–3 or the opening at zero. -/
def Chan.silent (c : Chan) : Bool :=
  c.st ≠ .switching || c.bus.all (· = 0) || (c.volR.still && decide (c.volR.val ≤ -32768)) || (c.drive.still && c.drive.val = 0) || (c.muteR.still && c.muteR.val = 0)
    || (c.aux.still && c.aux.val = 0)

/-- A tag starts to stop a channel (R123 step 2): HIZ, DISABLED and the retry wait need none, a latch stays, a silent
channel continues at the next boundary, others wait for a zero crossing. `own` marks CH_ENABLE's disable. -/
def Dev.stopChan (d : Dev) (tag n : Nat) (own : Bool) : Dev :=
  let c := d.chan n
  let d := if own then d.updChan n (fun c => { c with enabled := false, off := c.off || c.st = .latched }) else d
  if !c.st.on || (!own && c.st ≠ .switching) then
    let d := if own && c.st ≠ .latched then
      (d.updFlt n (fun f => { f with retryAt := none })).enter n .disabled else d
    d.waitDone tag n
  else if !d.renders c.dom then
    let d := if own then (d.enter n .softStop).idRelease n else d
    d.waitDone tag n
  else if c.st = .softStop then d.waitDone tag n
  else
    let s : Stop := if c.stop ≠ .no then c.stop else if c.silent then .crossed else .wait
    d.updChan n (fun c => { c with stop := s, waitAt := d.sys.uptime, stopTags := c.stopTags ++ [tag] })

/-- A tag stops channels (R123): step 1's count is in the tag already. -/
def Dev.stopChans (d : Dev) (tag : Nat) (l : List Nat) (own : Bool) : Dev :=
  let d := d.updTag tag (fun t => { t with ph := .ending, waits := listMask l })
  if l.isEmpty then d else d.forEach l (fun n d => d.stopChan tag n own)

/-- At a block boundary the crossed channels start their ramp to silence: 2 ms raised cosine (R221, R418). -/
def Dev.stopRamp (d : Dev) (n : Nat) : Dev :=
  let S := (d.dom (d.clk (d.chan n).dom)).blk
  if (d.chan n).stop = .crossed then
    let own := d.ownStop n
    d.updChan n (fun c => if own then { c with stop := .ramp, drive := c.drive.go 0 (3 * S) true 0 }
                          else { c with stop := .ramp, aux := c.aux.go 0 (3 * S) true 0 })
  else d

/-- The channel is the partner of a bridged pair: its primary leads its state (R224). -/
def Dev.isPartner (d : Dev) (n : Nat) : Bool := n % 2 = 1 && (d.pr (n / 2)).bridged

/-- The ramp to silence has ended (R123 step 5, R220): the channel's, and with it that of its partner in a bridged pair,
whose own drive is discarded (R224). -/
def Dev.stopEnd (d : Dev) (n : Nat) : Dev :=
  let c := d.chan n
  let done : Bool := if d.ownStop n then c.drive.still else c.aux.still
  if c.stop = .ramp && done && !(d.isPartner n && (d.chan (n - 1)).stop ≠ .no) then
    d.forEach ((d.mates n).filter (fun m => (d.chan m).stop ≠ .no)) (fun m d =>
      (if d.ownStop m then (d.enter m .softStop).idRelease m else d).stopDone m)
  else d

/-! ### Mutes that the device makes in layer 3 -/

/-- A mute of the device is wanted on the channel: its outputs have not started (R25), a re-anchor (R26), RATE_RANGE
(R29), an L_pres change (R37), a flywheel mute (R343), a lost reference (R377), the power state (R378), or a domain
being disabled (R418). -/
def Dev.auxMute (d : Dev) (n : Nat) : Bool :=
  let m := d.dom (d.chan n).dom
  !m.outs || m.reMute || m.rangeMute || m.lpMute ≠ 0 || m.st = .disabled || bit d.sys.flyMute n || !d.sys.refOk
    || d.sys.pHold || d.sys.pGoal ≠ 0

/-- A ramp of a channel of domain `dm`: where nothing renders, it is over at once. -/
def Dev.rampTo (d : Dev) (dm : Nat) (r : Ramp) (dst : Rat) (len : Nat) (cos : Bool) (skip : Nat) : Ramp :=
  if d.renders dm then r.go dst len cos skip
  else { val := dst, src := dst, dst := dst, len := 0, pos := 0, cos := cos, pre := [] }

/-- Start the ramps of layer 3 that the mutes wanted call for, over `ms` ms with a raised cosine. -/
def Dev.retarget (d : Dev) (ms : Nat) : Dev :=
  d.forEach (List.range 48) (fun n d =>
    let want : Rat := if d.auxMute n then 0 else 1
    let c := d.chan n
    if c.aux.dst = want || c.stop = .ramp then d
    else d.updChan n (fun c => { c with aux := d.rampTo c.dom c.aux want (ms * (d.dom (d.clk c.dom)).fs / 1000) true 0 }))

/-- Emergency changes act at once: ramp, holds and causes (R276); a ramp towards zero runs on where its length stays. -/
def Dev.emgChange (d : Dev) (before : Emg) (source : Nat) (on : Bool) (hard : Bool) : Dev :=
  let now := d.sys.uptime
  let len := if d.emg.any then d.emg.shortest else match source with
    | 0 => ramp01 before.pinRamp | 1 => ramp01 before.ramp | _ => ramp01 before.cmdRamp
  let same : Bool := before.any && d.emg.any && before.shortest = d.emg.shortest
  let e := if same then d.emg
    else { d.emg with ramp0 := before.value now, level := before.value now, rampAt := now, rampLen := 100 * len, down := d.emg.any }
  let d := { d with emg := e }
  let d := d.alarmIn d.tb.master 0x0B0A source (b2n hard) (if on then 1 else 4) 0
  (d.holdAll).emgSync

end Sys2Proof.Machine
end

