-- ==== Sys2Proof/Machine/Demod.lean ====
section
/-! DEFINITION. The schedule of a channel's test and the synchronous demodulation of its windows and of the pilot's, sample by
sample from the MEASURE and SURVEY taps (R287–R289, R298). -/

namespace Sys2Proof.Machine

/-! ### The schedule of a test (R287–R289) -/

/-- A tone's window in µs: DUR rounded down to whole periods. -/
def toneWin (dur f : Nat) : Nat := dur * f / 1000 * 1000000 / max 1 f

/-- The test contains the DC probe. -/
def Diag.dc (t : Diag) : Bool := t.kind = 1 && t.test ≠ 0

/-- The test contains the AC tones. -/
def Diag.ac (t : Diag) : Bool := t.kind = 2 || (t.kind = 1 && t.test ≠ 1)

/-- The windows of a test in µs from its stimulus: start, end, and the tone's frequency, 0 for a hold of the DC probe. -/
def Diag.windows (t : Diag) : List (Nat × Nat × Nat) :=
  let o := if t.dc then 60000 else 0
  let w := toneWin t.dur t.flo
  let o2 := o + 20000 + w
  (if t.dc then [(5000, 25000, 0), (35000, 55000, 0)] else [])
    ++ (if t.ac then [(o + 15000, o + 15000 + w, t.flo), (o2 + 15000, o2 + 15000 + toneWin t.dur t.fhi, t.fhi)] else [])

/-- Length of the stimulus of one channel in µs (R288, R289, R300). -/
def Diag.length (t : Diag) : Nat :=
  if t.kind = 4 then (if t.stim = 0 then 1500000 else 1700000)
  else (if t.dc then 60000 else 0) + (if t.ac then 40000 + toneWin t.dur t.flo + toneWin t.dur t.fhi else 0)

/-- Time of the stimulus at an uptime, in µs; `none` before it. It stands still while a disturbed window waits. -/
def Diag.time (t : Diag) (now : Nat) : Option Nat :=
  let at_ := t.waitAt.getD now
  if at_ < t.since + t.lead + t.shift then none else some (at_ - (t.since + t.lead + t.shift))

/-- A DSYNC reset during a test: the window or hold in progress is discarded and measured again once (R241, R301). -/
def Diag.dsync (t : Diag) (now : Nat) : Diag :=
  let hit := match t.time now with
    | some x => t.windows.any (fun w => decide (w.1 ≤ x ∧ x < w.2.1))
    | none => false
  { t with pilBad := true, dirty := t.dirty || (t.ph = .run && hit) }

/-! ### Demodulation (R288, R289, R298) -/

/-- Group delay of the MEASURE tap in µs (R230, R288). -/
def measureDelay : Nat := 762
/-- Group delay of the SURVEY tap in µs (R230). -/
def surveyDelay : Nat := 3117

/-- A sample of voltage and current joins, `y` µs after its window began, at a frequency in Hz; at 0 the sums are plain. -/
def Demod.add (a : Demod) (f : Rat) (y v i : Rat) : Demod :=
  let p := f * y / 1000000
  let w := 2 * piQ * (p - (p + 1 / 2).floor)
  let c := if f = 0 then 1 else cosQ w
  let s := if f = 0 then 0 else sinQ w
  { n := a.n + 1, vRe := a.vRe + v * c, vIm := a.vIm - v * s, iRe := a.iRe + i * c, iIm := a.iIm - i * s }

/-- Sums of two halves. -/
def Demod.join (a b : Demod) : Demod :=
  { n := a.n + b.n, vRe := a.vRe + b.vRe, vIm := a.vIm + b.vIm, iRe := a.iRe + b.iRe, iIm := a.iIm + b.iIm }

/-- The impedance in Ω: voltage sum over current sum (R289); with no current it is open (log entry 71). -/
def Demod.imp (a : Demod) : Rat × Rat :=
  let q := a.iRe * a.iRe + a.iIm * a.iIm
  if q = 0 then (Config.noCurrent a.vRe, Config.noCurrent a.vIm)
  else ((a.vRe * a.iRe + a.vIm * a.iIm) / q, (a.vIm * a.iRe - a.vRe * a.iIm) / q)

/-- Root mean square of a tone from its demodulated sum over `n` samples, in units of which `scale` make one V or A. -/
def toneRms (n : Nat) (re im : Rat) (scale : Nat) : Nat :=
  if n = 0 then 0 else (roundI (sqrtQ (2 * (re * re + im * im)) / (n : Rat) * (scale : Rat))).toNat

/-- Voltage of a tone in µV rms (R295). -/
def Demod.uv (a : Demod) : Nat := toneRms a.n a.vRe a.vIm 1000000
/-- Current of a tone in 0.1 µA rms (R295). -/
def Demod.ua (a : Demod) : Nat := toneRms a.n a.iRe a.iIm 10000000

/-- Mean voltage and current of a hold (R288). -/
def Demod.mean (a : Demod) : Rat × Rat := if a.n = 0 then (0, 0) else (a.vRe / (a.n : Rat), a.iRe / (a.n : Rat))

/-- The sums of window `k`. -/
def Diag.win (t : Diag) (k : Nat) : Demod := (t.acc[k]?).getD Demod.reset

/-- Set the sums of window `k` of a list. -/
def setWin (l : List Demod) (k : Nat) (x : Demod) : List Demod := (l ++ List.replicate (k + 1 - l.length) Demod.reset).set k x

/-- A MEASURE sample of a channel under test: it joins the window it falls into, later by the tap's group delay; of a hold
the last 15 ms count (R288, R289). -/
def Diag.measure (t : Diag) (now : Nat) (v i : Rat) : Diag :=
  if t.ph ≠ .run ∨ t.waitAt.isSome ∨ t.outAt.isSome then t
  else match t.time now, t.windows[t.judged]? with
    | some x, some w =>
      let lo := w.1 + measureDelay + (if w.2.2 = 0 then 5000 else 0)
      if lo ≤ x ∧ x < w.2.1 + measureDelay then
        { t with acc := setWin t.acc t.judged ((t.win t.judged).add (w.2.2 : Rat) ((x - w.1 - measureDelay : Nat) : Rat) v i) }
      else t
    | _, _ => t

/-- Periods in a pilot window: the fewest that last 1.0 s. -/
def pilotCycles (freq : Nat) : Nat := (freq + 9) / 10

/-- Length of a pilot window in µs (R298). -/
def Diag.pilLen (t : Diag) : Nat := pilotCycles t.pilFreq * 10000000 / max 1 t.pilFreq

/-- A SURVEY sample of a channel that plays the pilot: it joins the half of the window it falls into (R298). -/
def Diag.survey (t : Diag) (now : Nat) (v i : Rat) : Diag :=
  if !t.pilEn ∨ t.ph = .run ∨ now < t.pilAt + surveyDelay ∨ t.pilAt + surveyDelay + t.pilLen ≤ now then t
  else
    let y := now - (t.pilAt + surveyDelay)
    let k := if 2 * y < t.pilLen then 0 else 1
    { t with pilAcc := setWin t.pilAcc k (((t.pilAcc[k]?).getD Demod.reset).add ((t.pilFreq : Rat) / 10) (y : Rat) v i) }

/-- What a test of a channel measured (R288, R289, R295): the impedances at the tones in 10 mΩ, the DC probe's resistance
in mΩ (`none` where |I₊ − I₋| stayed below 0.4 mA), and the voltages and currents of the DETAIL field. -/
structure DiagMeas where
  zloRe : Int
  zloIm : Int
  zhiRe : Int
  zhiIm : Int
  rdc : Option Nat
  vlo : Nat
  ilo : Nat
  vhi : Nat
  ihi : Nat
  vdc : Int
  idc : Int
deriving DecidableEq, Repr

/-- The results of a test from its windows' sums, quantised as its records hold them (R290, R295). -/
def Diag.meas (t : Diag) : DiagMeas :=
  let o := if t.dc then 2 else 0
  let lo := t.win o
  let hi := t.win (o + 1)
  let p := (t.win 0).mean
  let n := (t.win 1).mean
  let v := if t.dc then p.1 - n.1 else 0
  let i := if t.dc then p.2 - n.2 else 0
  let part := fun (x : Rat) => clampInt (-32768) 32767 (roundI (x * 100))
  { zloRe := part lo.imp.1, zloIm := part lo.imp.2, zhiRe := part hi.imp.1, zhiIm := part hi.imp.2,
    rdc := if absQ i < 4 / 10000 then none else some (min 0xFFFFFFFE (roundI (v / i * 1000)).toNat),
    vlo := lo.uv, ilo := lo.ua, vhi := hi.uv, ihi := hi.ua, vdc := roundI (v * 1000000), idc := roundI (i * 10000000) }

/-- The halves of a pilot window agree within 2 % in magnitude and 1.0° in phase (R298). -/
def coherent (x y : Rat × Rat) : Bool :=
  let a := x.1 * x.1 + x.2 * x.2
  let b := y.1 * y.1 + y.2 * y.2
  let turn := argDeg (x.1 * y.1 + x.2 * y.2) (x.2 * y.1 - x.1 * y.2)
  decide (b ≤ a * (10404 / 10000)) && decide (a * (9604 / 10000) ≤ b) && decide (absQ turn ≤ 1)

end Sys2Proof.Machine
end

