-- ==== Sys2Proof/Machine/Chains.lean ====
section
/-! DEFINITION. What the decimation chains compute (R228–R230, R233–R236, R238): the CIC, the half-bands, the DC-blocking
stage, the tap FIRs, the fast coarse path, and what the consumers of the sense chains gather (R231). -/

namespace Sys2Proof.Machine

/-! ### Filters -/

/-- Output of an FIR with coefficients `h` over a history, newest first. -/
def firOut (h : Nat → Rat) (l : List Rat) : Rat := sumQ (l.mapIdx (fun k x => if x = 0 then 0 else h k * x))

/-- One biquad: coefficients b0, b1, b2, a1, a2 and history x1, x2, y1, y2 (R214). -/
def biquad (k : List Rat) (h : List Rat) (x : Rat) : Rat × List Rat :=
  let g := fun (l : List Rat) (n : Nat) => (l[n]?).getD 0
  let y := g k 0 * x + g k 1 * g h 0 + g k 2 * g h 1 - g k 3 * g h 2 - g k 4 * g h 3
  (y, [x, g h 0, y, g h 2])

/-- A Q1.31 output: nearest, saturating (log entry 26). -/
def toQ31 (x : Rat) : Int := clampInt (-2147483648) 2147483647 (roundI (x * 2147483648))

/-- Running sums of `r` neighbours. -/
def boxes (r : Nat) (l : List Int) : List Int := (List.range (l.length + 1 - r)).map (fun k => ((l.drop k).take r).sum)

/-- Bits that a CIC of fifth order and ratio `r` spans. -/
def cicSpan (r : Nat) : Nat := 5 * (r - 1) + 1

/-- A CIC output of fifth order, ratio `r` and differential delay 1, as a share of full scale: a one is +1, a zero is −1, a
cleared place 0 (R228, R229). -/
def cicOut (r : Nat) (bits : List Bool) : Rat :=
  let x : List Int := (List.range (cicSpan r)).map (fun k => match bits[k]? with | some true => 1 | some false => -1 | none => 0)
  (((boxes r (boxes r (boxes r (boxes r (boxes r x))))).headD 0 : Int) : Rat) / ((r : Rat) ^ 5)

/-! ### Stages of a chain (R228, R229) -/

/-- Taps of a half-band: the minimum-phase ones' histories hold 64 samples, for the manual gives no length (log entry 26). -/
def hbLen (k : Nat) : Nat := if k < 5 then 64 else ([7, 11, 11, 15, 19, 27, 95, 39, 83][k - 5]?).getD 0

/-- Coefficient of half-band `k`; a linear-phase one is symmetric. -/
def hbCoef (k i : Nat) : Rat := if k < 5 then Config.hbMin k i else Config.hbLin (k - 4) (min i (hbLen k - 1 - i))

/-- A sample joins a history of `len`. -/
def Chain.push (x : Chain) (k len : Nat) (v : Rat) : Chain := { x with fir := Tab.set x.fir k ((v :: Tab.get [] x.fir k).take len) }

/-- Half-bands in series: `n` counts the samples at the first one's input since the phase reset; each gives one output for
two inputs, on the even ones (R228, R238). -/
def Chain.half (x : Chain) : List Nat → Nat → Rat → Chain × Option Rat
  | [], _, v => (x, some v)
  | k :: ks, n, v =>
    let x := x.push k (hbLen k) v
    if n % 2 = 1 then (x, none) else x.half ks (n / 2) (firOut (hbCoef k) (Tab.get [] x.fir k))

/-- Standard FIR taps of tap `t` (R230). -/
def stdLen (t : Nat) : Nat := ([6, 12, 17, 11][t]?).getD 0

/-- Standard coefficient of a tap FIR; MEASURE and SURVEY are linear-phase (R230). -/
def stdCoef (mic : Bool) (t i : Nat) : Rat :=
  if stdLen t ≤ i then 0 else Config.tapStd mic t (if 2 ≤ t then min i (stdLen t - 1 - i) else i)

/-- A bank: `none` holds the preset's standard coefficients. -/
def Chain.bank (x : Chain) (k : Nat) : Option (List Int) := if k = 0 then x.bankA else x.bankB

/-- Coefficient of tap `t`: the selected tap's active bank, the standard ones elsewhere (R232, R233). -/
def Chain.tapCoef (x : Chain) (mic : Bool) (t i : Nat) : Rat :=
  match x.bank x.active with
  | some l => if t = x.preset then (((l[i]?).getD 0 : Int) : Rat) / 2147483648 else stdCoef mic t i
  | none => stdCoef mic t i

/-- A sample at tap `t`: its FIR over the 64-sample history, and the tap's output (R228, R233). -/
def Chain.tap (x : Chain) (mic : Bool) (t : Nat) (v : Rat) : Chain :=
  let x := x.push (14 + t) 64 v
  { x with taps := x.taps.set t (toQ31 (firOut (x.tapCoef mic t) (Tab.get [] x.fir (14 + t)))) }

/-- The DC-blocking stage is frozen: by either request (R234). -/
def Chain.frozen (x : Chain) : Bool := x.cmdFreeze || x.intFreeze

/-- One sample of the DC-blocking stage at `fs` Hz: the new estimate e, kept while frozen or for a faulty microphone
(R229, R234). -/
def Chain.dcStep (x : Chain) (fs : Nat) (v : Rat) : Chain :=
  if x.frozen then x
  else { x with e := x.e + (1 - expQ (-(2 * piQ * (x.corner : Rat) / 10 / (fs : Rat)))) * (v - x.e) }

/-- A bit joins the CIC's span; every `r`-th one since the phase reset gives an output. -/
def Chain.shift (x : Chain) (r : Nat) (b : Bool) : Chain × Option Rat :=
  let x := { x with bits := (b :: x.bits).take (cicSpan r) }
  if r ≤ x.bitN + 1 then ({ x with bitN := 0, cnt := (x.cnt + 1) % 512 }, some (cicOut r x.bits))
  else ({ x with bitN := x.bitN + 1 }, none)

/-- The CIC outputs since the phase reset, 1 to 512. -/
def Chain.count (x : Chain) : Nat := if x.cnt = 0 then 512 else x.cnt

/-! ### Sense chains (R228, R235) -/

/-- The fast coarse path: the largest magnitude of the last four CIC outputs as 12 bits of full scale, and the sign of the
sample that gave it (R235). -/
def Chain.peak (x : Chain) (v : Rat) : Chain :=
  let x := x.push 18 4 v
  let l := Tab.get [] x.fir 18
  let top := l.foldl (fun (a : Rat) y => if absQ a < absQ y then y else a) 0
  { x with coarse := min 4095 ((absQ top * 4096).floor.toNat), coarseNeg := decide (top < 0) }

/-- The minimum-phase branch: LOOP, then GUARD. -/
def Chain.fast (x : Chain) (v : Rat) : Chain :=
  match x.half [0, 1] x.count v with
  | (x, none) => x
  | (x, some y) =>
    let x := x.tap false 0 y
    match x.half [2, 3, 4] (x.count / 4) y with
    | (x, none) => x
    | (x, some g) => x.tap false 1 g

/-- The linear-phase branch: the DC-blocking stage and MEASURE, then SURVEY. -/
def Chain.slow (x : Chain) (v : Rat) : Chain :=
  match x.half [5, 6, 7, 8, 9, 10, 11] x.count v with
  | (x, none) => x
  | (x, some m) =>
    let x := x.dcStep 48000 m
    let y := m - x.e
    let x := x.tap false 2 y
    match x.half [12, 13] (x.count / 128) y with
    | (x, none) => x
    | (x, some s) => x.tap false 3 s

/-- Bits of the modulator of sense chain `c`, oldest first: each CIC output, trimmed, feeds the coarse path and both branches
(R210, R228). -/
def Chain.run (x : Chain) (c : Nat) (l : List Bool) : Chain :=
  l.foldl (fun (x : Chain) b =>
    match x.shift 8 b with
    | (x, none) => x
    | (x, some v) =>
      let v := v * (Config.trim c).1 + (Config.trim c).2
      ((x.peak v).fast v).slow v) x

/-- Every stage's phase is zero; histories, e and banks stay (R238). -/
def Chain.phaseZero (x : Chain) : Chain := { x with rstDue := false, bitN := 0, cnt := 0 }

/-- The bits of one loop update: 32, and where a phase reset falls into it those before the reset as well (R238, R239). -/
def Chain.update (x : Chain) (c : Nat) (l : List Bool) : Chain :=
  let k := l.length - 32
  let x := if x.rstDue then (x.run c (l.take k)).phaseZero else x
  x.run c (l.drop k)

/-- The chain stops: it delivers zero with empty histories; e is kept (R236). -/
def Chain.clear (x : Chain) : Chain :=
  { x with bits := [], fir := [], taps := [0, 0, 0, 0], coarse := 0, coarseNeg := false }

/-! ### Microphone chains (R229) -/

/-- Ratio of a microphone's CIC for the PDM clock (R229). -/
def pdmRatio (clk : Nat) : Nat := match clk with | 0 => 8 | 1 => 16 | _ => 32

/-- One CIC output of a microphone chain and what its selected tap delivers for it; a faulty microphone's e is held. -/
def Chain.micOut (x : Chain) (faulty : Bool) (v : Rat) : Chain × List Int :=
  let x := if faulty then x else x.dcStep 192000 v
  let x := if absQ v = 1 then { x with ovl := satInc 65535 x.ovl } else x
  let y := v - x.e
  let x := x.tap true 1 y
  match x.half [10, 11] x.count y with
  | (x, none) => (x, if x.preset = 1 then [(x.taps[1]?).getD 0] else [])
  | (x, some m) =>
    let x := x.tap true 2 m
    (x, [(x.taps[if x.preset = 1 then 1 else 2]?).getD 0])

/-- Bits of a microphone, oldest first, and what its selected tap delivers. -/
def Chain.micRun (x : Chain) (r : Nat) (faulty : Bool) (l : List Bool) : Chain × List Int :=
  l.foldl (fun (a : Chain × List Int) b =>
    match a.1.shift r b with
    | (x, none) => (x, a.2)
    | (x, some v) => let o := x.micOut faulty v; (o.1, a.2 ++ o.2)) (x, [])

/-- The bits of one block of a microphone: where a phase reset falls into it, `k` of them come before the reset (R238). -/
def Chain.micBlock (x : Chain) (r : Nat) (faulty : Bool) (k : Nat) (l : List Bool) : Chain × List Int :=
  if !x.rstDue then x.micRun r faulty l
  else
    let a := x.micRun r faulty (l.take k)
    let b := a.1.phaseZero.micRun r faulty (l.drop k)
    (b.1, a.2 ++ b.2)

/-! ### Validity and consumers (R231, R236) -/

/-- Twice the group delay of a tap in ns, and the 1 µs of the coarse path (tap 4) (R236). -/
def tapWait : Nat → Nat
  | 0 => 3800 | 1 => 28000 | 2 => 1525000 | 3 => 6233000 | _ => 1000

/-- A channel's tap delivers valid values: its die's PVDD is in range and the restart lies far enough back (R236). -/
def Dev.tapValid (d : Dev) (n tap : Nat) : Bool :=
  !(d.die (dieOf n)).pvdd && (match (d.chain n).restartAt with
    | none => true
    | some t => decide (tapWait tap ≤ (d.sys.uptime - t) * 1000))

/-- A tap of the two sense chains of a channel in V and A; an invalid value is not used (R228, R236). -/
def Dev.tapOut (d : Dev) (n tap : Nat) : Rat × Rat :=
  if !d.tapValid n tap then (0, 0)
  else
    let v := fun (c : Nat) => ((((d.chain c).taps[tap]?).getD 0 : Int) : Rat) / 2147483648
    (v n * 60, v (n + 48) * 12)

/-- Coarse magnitude of a channel's voltage in mV (R235). -/
def Dev.coarseMv (d : Dev) (n : Nat) : Rat := if d.tapValid n 4 then ((d.chain n).coarse : Rat) * 60000 / 4096 else 0

/-- A stage of a fixed filter at `fs` Hz. -/
def stageOf (f : Nat → Rat) (h : List Rat) (x : Rat) : Rat × List Rat := biquad ((List.range 5).map f) h x

/-- A GUARD sample of a channel's voltage and current (R231): the thermal model's and the arbiter's sums (R246, R254, R256)
and the DC detector's filter (R274). -/
def Sums.guard (s : Sums) (v i : Rat) : Sums :=
  let h := if s.hf.isEmpty && i = 0 then (0, []) else stageOf (Config.hpCoef 1000 192000) s.hf i
  let l := if s.dc.isEmpty && v = 0 then (0, []) else stageOf (Config.lpCoef 4 192000 0) s.dc v
  { s with n := s.n + 1, i2 := s.i2 + i * i, hf2 := s.hf2 + h.1 * h.1, p := s.p + v * i, pPos := s.pPos + maxQ 0 (v * i),
           hf := h.2, dc := l.2, vdc := l.1 }

/-- The fourth-order low-pass of the estimation windows (R248). -/
def lowPass4 (h : List Rat) (x : Rat) : Rat × List Rat :=
  if h.isEmpty && x = 0 then (0, [])
  else
    let a := stageOf (Config.lpCoef 1000 48000 0) (h.take 4) x
    let b := stageOf (Config.lpCoef 1000 48000 1) (h.drop 4) a.1
    (b.1, a.2 ++ b.2)

/-- A MEASURE sample of a channel: the sums of the estimation window, with the motional and inductive voltage that the
excursion model predicts from the measured current (R248). -/
def Sums.measure (s : Sums) (t : TsSet) (v i : Rat) : Sums :=
  let a := lowPass4 s.lpV v
  let b := lowPass4 s.lpI i
  if b.1 = 0 && s.mot.isEmpty then { s with lpV := a.2, lpI := b.2 }
  else
    let g := fun (k : Nat) => (s.mot[k]?).getD 0
    let m := Config.excCurrent t 48000 (g 0, g 1, g 2) b.1
    let di := (b.1 - g 2) * 48000
    let vm := (t.bl : Rat) / 10000 * m.2.1 + (t.le : Rat) / 1000000000 * di
    { s with lpV := a.2, lpI := b.2, mot := [m.1, m.2.1, b.1], vi := s.vi + a.1 * b.1, motI := s.motI + vm * b.1,
             ii := s.ii + b.1 * b.1 }

/-- The sums of a block are used. -/
def Sums.next (s : Sums) : Sums := { s with n := 0, i2 := 0, hf2 := 0, p := 0, pPos := 0 }

/-- An estimation window ends. -/
def Sums.window (s : Sums) : Sums := { s with vi := 0, motI := 0, ii := 0 }

/-- Mean over the block's GUARD samples. -/
def Sums.mean (s : Sums) (x : Rat) : Rat := if s.n = 0 then 0 else x / (s.n : Rat)

/-- Change the sums of a channel. -/
def Dev.updSums (d : Dev) (n : Nat) (f : Sums → Sums) : Dev := d.updChan n (fun c => { c with sums := f c.sums })

/-- The taps' new samples go to their consumers. A bridged pair is one load: its primary's sums take the summed current, at
the partner's update (R224, R246). -/
def Dev.gather (d : Dev) (n : Nat) : Dev :=
  let pair : Bool := (d.pr (n / 2)).bridged
  let k := if pair then 2 * (n / 2) else n
  let cur := fun (t : Nat) => if pair then (d.tapOut k t).2 + (d.tapOut (k + 1) t).2 else (d.tapOut k t).2
  let c := d.chain n
  if pair && n % 2 = 0 then d
  else
    let d' := if c.cnt % 32 = 0 && d.tapValid n 1 then d.updSums k (fun s => s.guard (d.tapOut k 1).1 (cur 1)) else d
    let d' := if c.cnt % 128 = 0 && d.tapValid n 2 then
        (d'.updSums k (fun s => s.measure (d.chan k).prot.ts (d.tapOut k 2).1 (cur 2))).updChan k (fun x =>
          { x with diag := x.diag.measure d.sys.uptime (d.tapOut k 2).1 (cur 2) })
      else d'
    if c.cnt = 0 && d.tapValid n 3 && (d.chan k).st = .switching then
      d'.updChan k (fun x => { x with diag := x.diag.survey d.sys.uptime (d.tapOut k 3).1 (cur 3) })
    else d'

/-- The bits of both modulators of a channel over one loop update pass its chains (R228); those of a die whose PVDD is out of
range have stopped (R236). -/
def Dev.senseStep (d : Dev) (n : Nat) (v i : List Bool) : Dev :=
  if (d.die (dieOf n)).pvdd then d
  else ((d.updChain n (fun x => x.update n v)).updChain (n + 48) (fun x => x.update (n + 48) i)).gather n

end Sys2Proof.Machine
end

