-- ==== Sys2Proof/Machine/Timebase.lean ====
section
/-! DEFINITION. Timebase domains (R20–R41, R418): line words, the domain state machine and its timers, pairing, the
time that passes, and the timebase commands. -/

namespace Sys2Proof.Machine

/-! ### States and events (R25) -/

/-- Number of a domain state (R128). -/
def DomSt.code : DomSt → Nat
  | .disabled => 0 | .acquire => 1 | .locked => 2 | .holdover => 3 | .freerun => 4

/-- Change one domain's state with TB_STATE, of the line-time it had, and a Mordant record (R25). -/
def Dev.tbState1 (d : Dev) (n : Nat) (s : DomSt) : Dev :=
  let old := (d.dom n).st
  if old = s then d
  else
    let lt := d.ltNow n
    (d.updDom n (fun m => { m with st := s })).alarmLt lt 0x0104 n (old.code + s.code * 256)

/-- LOCKED again: stamped commands that a re-anchor left in the past wait no longer (R35). -/
def Dev.unwait (d : Dev) (n : Nat) : Dev :=
  { d with tags := Tab.mapAll (fun (_ : Nat) (t : Tag) =>
      match t.hdr with
      | some h => if t.lockWait && d.clk h.domain = n then { t with lockWait := false } else t
      | none => t) d.tags }

/-- The same; TD1 of a pair, where it is enabled, follows TD0 (R31). -/
def Dev.tbState (d : Dev) (n : Nat) (s : DomSt) : Dev :=
  let e := d.tbState1 n s
  let e := if d.tb.pair && n = 0 && (d.dom 1).st ≠ .disabled then e.tbState1 1 s else e
  if s = .locked then e.unwait n else e

/-- The domains that run on domain `n`'s clock. -/
def Dev.onClock (d : Dev) (n : Nat) : List Nat := if d.tb.pair && n = 0 then [0, 1] else [n]

/-- The domain's outputs may start, and outputs that a re-anchor muted resume, both over 2 ms (R25, R26); a re-anchor
whose jump had not come begins anew with its ramp to mute. -/
def Dev.startOuts (d : Dev) (n : Nat) : Dev :=
  (d.forEach (d.onClock n) (fun k d => d.updDom k (fun m =>
    { m with outs := true, reMute := false, anchorAt := none }))).retarget 2

/-- HOLDOVER ends, and its timer. -/
def Dev.leaveHold (d : Dev) (n : Nat) : Dev := d.updDom n (fun m => { m with holdAt := none })

/-- Four line periods in µs. -/
def Dom.fourLines (m : Dom) : Rat := 4 * 65536 / m.nominal

/-- TD0 of a pair tracks LTL1 and reports LOCKED with FAILOVER (R32). -/
def Dev.failOver (d : Dev) : Dev :=
  ((((d.updDom 0 (fun m => { m with failover := true, backAt := none, lastSeqAt := d.sys.uptime })).leaveHold 0).tbState 0 .locked)).startOuts 0

/-- LTL1 delivers words in sequence with TD0's prediction plus O now, so that the pair can fail over (R32). -/
def Dev.pairReady (d : Dev) (n : Nat) : Bool :=
  let p := d.dom 1
  d.tb.pair && n = 0 && p.pairOk && p.st ≠ .disabled
    && decide ((d.sys.uptime : Rat) < (p.lastValidAt : Rat) + (d.dom 0).fourLines)

/-- Enter HOLDOVER (R25): the frequency estimate is held, the timer starts; a pair whose LTL1 is in sequence fails over
(R32); else a limit of 0 ms leads on to FREERUN. -/
def Dev.toHoldover (d : Dev) (n : Nat) : Dev :=
  let d := d.updDom n (fun m => { m with holdAt := some d.sys.uptime, lockAt := none, run := 0, runFhi := false })
  let d := (d.tbState n .holdover).startOuts n
  if d.pairReady n then d.failOver
  else if (d.dom n).holdLim = 0 then (d.leaveHold n).tbState n .freerun else d

/-- First block boundary not yet rendered: L_pres ahead of the present sample (R28, R36). -/
def Dev.aheadBlk (d : Dev) (n : Nat) : Nat :=
  let m := d.dom (d.clk n)
  m.ceilBlk (d.scNow n + (d.dom n).lpres * m.fs / 1000000)

/-- Re-evaluate the pending stamped commands of a domain's line-time after a re-anchor (R26, R35): a stamp now in the
past waits for LOCKED, one in the future keeps its stamp. When LT is first set (`hold` false) none waits. -/
def Dev.restamp (d : Dev) (n : Nat) (hold : Bool) : Dev :=
  let l := d.tagsInOrder (fun t => t.uncommitted && t.ph = .sched && t.atLt)
  d.forEach l (fun k d =>
    let t := d.tag k
    match t.hdr with
    | some h =>
      if d.clk h.domain ≠ n then d
      else
        let m := d.dom n
        let fut := m.isFuture m.pos (d.stampPos h.domain h.lt)
        let effs := t.effs.map (fun e => (e.1, if fut then (d.effOf h e.1).1 else e.2))
        d.setTag k { t with effs := effs, lockWait := hold && !fut, late := t.late || !fut }
    | none => d)

/-- Set LT of a domain so that a line starts at a given time, and SC by R27, R28: SC never falls, W is raised by the
least whole number that keeps it. -/
def Dev.setLt (d : Dev) (n frame line lpf : Nat) (ns : Int) : Dev :=
  let m := d.dom n
  let oldSc := if m.ltSet then d.scNow n else 0
  let m := { m with lpf := lpf, lpfEst := true, ltSet := true }
  let since : Rat := ((d.sys.uptime * 1000 : Nat) : Rat) - (ns : Rat)
  let p : Rat := (((frame * lpf + line) * 65536 : Nat) : Rat) + since / 1000 * m.speed
  let fl := p.floor
  let pos := (fl % (m.cycle : Int)).toNat
  let m := { m with pos := pos, sub := p - fl, slew := 0 }
  let c := m.cAt pos m.sub
  let w := if oldSc ≤ m.w * m.sM + c then m.w else (oldSc - c + m.sM - 1) / m.sM
  let first := !(d.dom n).ltSet
  let d := d.setDom n { m with w := w }
  let d := d.forEach (d.onClock n) (fun k d => d.updDom k (fun x => { x with nextBlk := max x.nextBlk (d.aheadBlk k) }))
  if first then d.restamp n false else d

/-- A domain's scene stream expects the frame after the present one (R199, R205). -/
def Dev.expectOne (d : Dev) (k : Nat) : Dev :=
  let s := d.stream k
  if s.en then d.setStream k { s with expect := (d.ltNow k / 2 ^ 32 + 1) % rateMod (d.dom (d.clk k)).rate, shadowMin := 0 } else d

/-- The same for the streams on a clock. -/
def Dev.expectFrame (d : Dev) (n : Nat) : Dev := d.forEach (d.onClock n) (fun k d => d.expectOne k)

/-- A locked port drops its SC assignment and is UNLOCKED, without an event (R305, R378, R418). -/
def TPort.relock (p : TPort) : TPort :=
  if p.st ≠ .locked then p
  else
    let shut := fun (_ : Nat) (g : Gate) => { g with st := if g.st = .muted || g.st = .decay then g.st else .shut }
    { p with st := .unlocked, held := [], slip := none, slipAt := none, recFlags := 0, rxBuf := [], errRun := 0,
             gates := Tab.mapAll shut p.gates }

/-- The ramp to mute of a re-anchor, which keeps the word that LT will be set from (R26 step 1). -/
def Dev.anchorMute (d : Dev) (n : Nat) (w : Word) : Dev :=
  let d := d.updDom n (fun m => { m with anchorAt := some d.sys.uptime, anchorW := w })
  (d.forEach (d.onClock n) (fun k d => d.updDom k (fun m => { m with reMute := true }))).retarget 2

/-- The jump of a re-anchor after it (R26 steps 2 to 4): LT and SC from the new words, LPF, pending stamps, and ACQUIRE
until LOCKED again. -/
def Dev.reanchor (d : Dev) (n : Nat) (w : Word) : Dev :=
  let old := d.ltNow n
  let was := (d.dom n).lpf
  let d := (d.leaveHold n).setLt n w.frame w.line w.lpf w.ns
  let d := d.alarmIn n 0x0105 n old 0 0
  let d := if was ≠ w.lpf then d.raiseIn n 0x0106 n (was + w.lpf * 65536) 0 else d
  let d := (d.restamp n true).expectFrame n
  let d := { d with ports := Tab.mapAll (fun (_ : Nat) (p : TPort) => if (d.onClock n).contains p.dom then p.relock else p) d.ports }
  let d := d.updDom n (fun m => { m with lockAt := none, run := 0, runFhi := false, anchorAt := none })
  if (d.dom n).st = .acquire then d
  else (d.updDom n (fun m => { m with acqAt := some d.sys.uptime })).tbState n .acquire

/-- Re-anchors whose 2 ms of ramp have passed jump to the last of the consistent words (R26). -/
def Dev.anchorsDue (d : Dev) : Dev :=
  d.forEach [0, 1, 2, 3] (fun n d =>
    let m := d.dom n
    match m.anchorAt with
    | some a => if a + 2000 ≤ d.sys.uptime ∧ m.st ≠ .disabled then d.reanchor n m.anchorW else d
    | none => d)

/-! ### Line words (R22–R26) -/

/-- CRC-8 of the top `k` bits of a word, most significant first: x⁸ + x² + x + 1 from 0xFF (R23). -/
def crc8 (w : Nat) : Nat :=
  (List.range 56).foldl (fun c i =>
    let b := (w >>> (63 - i)) % 2
    let top := c / 128 % 2
    let c' := c * 2 % 256
    if top = b then c' else c' ^^^ 7) 0xFF

/-- Frame count that a word gives with what is known of its other half (R23): that of the frame `pred` which the domain
predicts for the word's line start, else that of the frame after the last word's where a line 0 begins it, else the half
that was last received. DESIGN CHOICE (log entry 75): that upper half is the last FHI word's, be it from before a jump
whose words carried no FHI (R26). -/
def Dom.frameOf (m : Dom) (pred : Nat) (fhi : Bool) (f16 line : Nat) : Nat :=
  let next := (m.last.frame + 1) % rateMod m.rate
  if fhi then
    if pred / 65536 = f16 then pred
    else f16 * 65536 + (if m.last.line = 0 then m.last.frame else next) % 65536
  else if pred % 65536 = f16 then pred
  else if line = 0 ∧ next % 65536 = f16 then next
  else m.fhi % 65536 * 65536 + f16

/-- The intrinsic check that a word fails, as the counter it feeds: 1 FORMAT_ERR, 2 CRC_ERR, 3 RATE_ERR (R24). -/
def Dom.badWord (m : Dom) (n pred w : Nat) (framing : Bool) : Option Nat :=
  let rate := bits w 57 55
  let lpf := bits w 21 8
  let line := bits w 34 22
  let fhi := bit w 54
  let f := rateFps rate
  if !framing || bits w 63 60 ≠ 0b1011 then some 1
  else if crc8 w ≠ w % 256 then some 2
  else if bits w 59 58 ≠ n then some 1
  else if rate ≠ m.rate then some 3
  else if lpf < 100 ∨ 8192 < lpf ∨ 500000 * f.2 < lpf * f.1 then some 1
  else if m.lpfEst && (m.st = .locked || m.st = .acquire) && lpf ≠ m.lpf then some 1
  else if lpf ≤ line then some 1
  else if rateMod rate ≤ m.frameOf pred fhi (bits w 50 35) line then some 1
  else if fhi ≠ (line = 1 : Bool) then some 1
  else none

/-- The word is the next line after another word (R24). DESIGN CHOICE (log entry 75): a lost or invalid word between two
valid ones breaks the run of R25, which starts again at 1. -/
def nextLine (rate : Nat) (a b : Word) (fhi : Bool) : Bool :=
  let wrap : Bool := a.line + 1 = a.lpf
  let f := if wrap then (a.frame + 1) % rateMod rate else a.frame
  a.lpf = b.lpf && b.line = (if wrap then 0 else a.line + 1)
    && (if fhi then true else b.frame % 65536 = f % 65536)

/-- The line that domain `n` predicts nearest to an instant `ns` of uptime, by its own line-time plus `off` lines: its
number in the cycle of the frame count, and the instant's error against its start in ns (R24). -/
def Dev.nearLine (d : Dev) (n : Nat) (ns off : Int) : Nat × Rat :=
  let m := d.dom n
  let us : Rat := ((ns : Rat) - ((d.sys.uptime * 1000 : Nat) : Rat)) / 1000
  let p : Rat := (m.pos : Rat) + m.sub + us * m.speed + (((m.cycle : Int) + off * 65536 : Int) : Rat)
  let l := roundI (p / 65536)
  ((l % ((m.cycle / 65536 : Nat) : Int)).toNat, ((l : Rat) * 65536 - p) / m.speed * 1000)

/-- Phase error in ns of a line start against the domain's prediction, and whether line and frame agree (R24): the
nearest predicted line. -/
def Dev.phaseErr (d : Dev) (n : Nat) (w : Word) (fhi : Bool) (off : Int) : Rat × Bool :=
  let m := d.dom n
  let e := d.nearLine n w.ns off
  let fr := e.1 / m.lpf
  let same : Bool := e.1 % m.lpf = w.line && w.lpf = m.lpf
    && (if fhi then fr / 65536 = w.frame / 65536 else fr % 65536 = w.frame % 65536)
  (e.2, same)

/-- The frame that link `n` is expected to carry at an instant: by its domain's line-time, TD0's plus O for LTL1 of a pair,
or, before LT is set, the last word's frame, or the next one where the line number has gone back (R23, R24, R32). -/
def Dev.predFrame (d : Dev) (n line : Nat) (ns : Int) : Nat :=
  let k := d.clk n
  if (d.dom k).ltSet then (d.nearLine k ns (if k = n then 0 else d.tb.offset)).1 / (d.dom k).lpf
  else
    let l := (d.dom n).last
    if line ≤ l.line then (l.frame + 1) % rateMod (d.dom n).rate else l.frame

/-- The error against the prediction: a slew under way is counted as done (R26, R41). -/
def Dom.predErr (m : Dom) (err : Rat) : Rat := if m.slewPpm = 0 then err else err - m.slew

/-- Frequency in ppm from nominal that the spacing of two words implies (R25), within the ±600 ppm of R376. -/
def Dom.spacing (m : Dom) (a b : Word) : Rat :=
  let m := { m with lpf := b.lpf }
  let lines := ((b.frame * b.lpf + b.line : Nat) : Int) - ((a.frame * a.lpf + a.line : Nat) : Int)
  let ns : Rat := ((lines : Rat) * 65536 / m.nominal) * 1000
  let real : Rat := ((b.ns - a.ns : Int) : Rat)
  if lines ≤ 0 ∨ real ≤ 0 then m.freq else clampQ (-600) 600 ((ns / real - 1) * 1000000)

/-- The frequency estimate after one more word in sequence: it approaches the spacing's frequency at the DPLL's bandwidth,
as a first-order low-pass over the time between the words (R40; log entry 18). -/
def Dom.follow (m : Dom) (w : Word) : Rat :=
  let dt : Rat := ((w.ns - m.last.ns : Int) : Rat) / 1000000000
  let a := clampQ 0 1 (2 * piQ * ((m.bw : Rat) / 10) * dt)
  roundQ (m.freq + a * (m.spacing m.last w - m.freq))

/-- A valid in-sequence word (R25, R26): phase by slew, the frequency after the line spacing, lock qualification. -/
def Dev.inSequence (d : Dev) (n : Nat) (w : Word) (err : Rat) : Dev :=
  let now := d.sys.uptime
  let m := d.dom n
  let good : Bool := decide (absQ err ≤ 250)
  let lockAt := if good then (if m.lockAt.isNone then some now else m.lockAt) else none
  let d := d.setDom n { m with slew := err, freq := m.follow w, lastSeqAt := now, run := 0, runFhi := false,
                               lockAt := lockAt, anchorAt := none }
  match m.st with
  | .holdover | .freerun =>
    let d := (d.leaveHold n).tbState n .locked
    if m.anchorAt.isSome then d.startOuts n else d
  | .acquire =>
    match lockAt with
    | some a => if a + 100000 ≤ now then (d.tbState n .locked).startOuts n else d
    | none => d
  | _ => d

/-- A valid word that is not in sequence: SEQ_ERR, the run of consistent words, and after 8 of them the first setting
of LT or a re-anchor (R25). -/
def Dev.offSequence (d : Dev) (n : Nat) (w : Word) (fhi : Bool) (count : Bool) : Dev :=
  let m := d.dom n
  let cons := nextLine m.rate m.last w fhi && decide (0 < m.run)
  let run := if cons then satInc 8 m.run else 1
  let anyFhi := if cons then m.runFhi || fhi else fhi
  let d := d.setDom n { m with run := run, runFhi := anyFhi, lockAt := none,
                               seqErr := if count then satInc (2 ^ 32 - 1) m.seqErr else m.seqErr }
  if run < 8 then d
  else if m.anchorAt.isSome then d.updDom n (fun x => { x with anchorW := w })
  else if !m.ltSet then
    if !anyFhi then d
    else
      let d := d.updDom n (fun x => { x with freq := x.spacing x.last w })
      (d.setLt n w.frame w.line w.lpf w.ns).updDom n (fun x => { x with lastSeqAt := d.sys.uptime, run := 0 })
  else if m.st = .acquire || m.st = .holdover || m.st = .freerun then d.anchorMute n w
  else d

/-- RATE_RANGE of one domain (R29): beyond ±500 ppm of the clock master it is muted, within ±450 ppm it resumes. -/
def Dev.rangeOne (d : Dev) (n : Nat) : Dev :=
  let m := d.dom n
  let c := d.dom (d.clk d.tb.master)
  let off := (d.dom (d.clk n)).freq - (if c.st = .disabled then 0 else c.freq)
  if n = d.tb.master then (if m.rangeMute then d.setDom n { m with rangeMute := false } else d)
  else if m.st = .disabled then d
  else if !m.rangeMute && decide (500 < absQ off) then
    (d.setDom n { m with rangeMute := true }).alarmIn n 0x0107 n (twos 64 (roundI (off * 1000))) 0 0
  else if m.rangeMute && decide (absQ off ≤ 450) then d.setDom n { m with rangeMute := false }
  else d

/-- The same for every domain. -/
def Dev.rateRange (d : Dev) : Dev :=
  let e := d.forEach [0, 1, 2, 3] (fun n d => d.rangeOne n)
  if e.doms = d.doms then d else e.retarget 2

/-- PAIR_MISMATCH with the last difference, once in an uptime second (R32, R417). -/
def Dev.pairMismatch (d : Dev) : Dev :=
  let m := d.dom 1
  let told : Bool := match m.misAt with
    | some a => decide (d.sys.uptime / 1000000 ≤ a / 1000000)
    | none => false
  if told then d
  else (d.updDom 1 (fun m => { m with misAt := some d.sys.uptime })).alarmIn 1 0x0109 1 (twos 64 m.misNs) 0 0

/-- A word of LTL0 while the pair tracks LTL1: the second of valid in-sequence words begins with the first of them, and
anew after a word out of sequence or four line periods without one (R32). -/
def Dom.backWord (m : Dom) (now : Nat) (seq : Bool) : Dom :=
  let fresh : Bool := m.backAt.isNone || decide ((m.backLast : Rat) + m.fourLines < (now : Rat))
  if seq then { m with backAt := if fresh then some now else m.backAt, backLast := now }
  else { m with backAt := none, seqErr := satInc (2 ^ 32 - 1) m.seqErr }

/-- A valid word of LTL1 in a pair (R32): while TD0 tracks LTL0, beyond ±2 µs of TD0 plus O or another line is a mismatch;
in HOLDOVER a word in sequence takes over; after that TD0 follows it. `pairOk` notes that the last word could. -/
def Dev.pairWord (d : Dev) (w : Word) (fhi : Bool) : Dev :=
  let m := d.dom 0
  let e := d.phaseErr 0 w fhi d.tb.offset
  let near := absQ (m.predErr e.1)
  let ok : Bool := m.ltSet && e.2 && decide (near ≤ 20000)
  let d := d.updDom 1 (fun x => { x with pairOk := ok, misNs := roundI (-e.1), lastValidAt := d.sys.uptime, last := w })
  let calm := d.updDom 1 (fun x => { x with mis := false })
  let follow := calm.updDom 0 (fun x => { x with slew := e.1, lastSeqAt := d.sys.uptime })
  if !m.ltSet then calm
  else if m.failover then (if e.2 && decide (near ≤ 2000) then follow else calm)
  else match m.st with
    | .holdover => if ok then follow.failOver else calm
    | .locked | .acquire =>
      if !e.2 || decide (2000 < absQ e.1) then
        (d.updDom 1 (fun x => { x with mis := true, pairMis := satInc (2 ^ 32 - 1) x.pairMis })).pairMismatch
      else calm
    | _ => calm

/-- A valid word of link `n` (R24–R26, R32). -/
def Dev.validWord (d : Dev) (n : Nat) (w : Word) (fhi hold : Bool) : Dev :=
  let m := d.dom n
  let d := if hold ≠ m.genHold then d.raiseIn n 0x0108 n (b2n hold) 0 else d
  let fhi16 := if fhi then w.frame / 65536 else m.fhi
  let d := d.updDom n (fun m => { m with genHold := hold, fhi := fhi16 })
  let d :=
    if d.tb.pair && n = 1 then d.pairWord w fhi
    else if !m.ltSet then d.offSequence n w fhi false
    else
      let e := d.phaseErr n w fhi 0
      let lim : Rat := if m.st = .locked then 2000 else 20000
      let seq : Bool := e.2 && decide (absQ (m.predErr e.1) ≤ lim)
      if m.failover then
        d.updDom n (fun m => m.backWord d.sys.uptime seq)
      else if seq then d.inSequence n w e.1
      else d.offSequence n w fhi true
  let d := d.updDom n (fun m => { m with last := w, lastValidAt := d.sys.uptime })
  d.rateRange.anchorsDue

/-- A word that fails an intrinsic check is counted and has no further effect (R24); it breaks the second of valid words
that a failed-over pair waits for (R32). -/
def Dom.bad (m : Dom) (k : Nat) : Dom :=
  let m := { m with backAt := if m.failover then none else m.backAt }
  match k with
  | 1 => { m with fmtErr := satInc (2 ^ 32 - 1) m.fmtErr }
  | 2 => { m with crcErr := satInc (2 ^ 32 - 1) m.crcErr }
  | _ => { m with rateErr := satInc (2 ^ 32 - 1) m.rateErr }

/-- LINE_WORD: a word received on link LTLn with its framing check, its line start at `ns` of uptime (R21–R26). -/
def execLineWord (n w : Nat) (framing : Bool) (ns : Nat) (s : State) : Host.Outcome State Fault Refusal :=
  .next (s.onLive (fun d =>
    let m := d.dom n
    let at_ : Int := (ns : Int) - (m.cable : Int)
    let pred := d.predFrame n (bits w 34 22) at_
    if 4 ≤ n ∨ m.st = .disabled then d
    else match m.badWord n pred w framing with
      | some k => d.updDom n (fun m => m.bad k)
      | none =>
        let fhi := bit w 54
        let line := bits w 34 22
        let wd : Word := { frame := m.frameOf pred fhi (bits w 50 35) line, line := line, lpf := bits w 21 8, ns := at_ }
        d.validWord n wd fhi (bit w 53)))

/-! ### Timers (R25, R32) -/

/-- LINE_WORD_TIMEOUT: LOCKED without an in-sequence word, or ACQUIRE with LT set without a valid word, for 4 line
periods: HOLDOVER (R25); a pair whose LTL1 is in sequence fails over (R32). -/
def execLineWordTimeout (n : Nat) (s : State) : Host.Outcome State Fault Refusal :=
  .next (s.onLive (fun d =>
    let m := d.dom n
    let now : Rat := (d.sys.uptime : Rat)
    let due : Bool :=
      (m.st = .locked && decide ((m.lastSeqAt : Rat) + m.fourLines ≤ now))
        || (m.st = .acquire && m.ltSet && decide ((m.lastValidAt : Rat) + m.fourLines ≤ now))
    if !due || (d.tb.pair && n = 1) then d
    else
      (d.updDom n (fun m => { m with failover := false, backAt := none })).toHoldover n))

/-- ACQUIRE_TIMER_EXPIRY: the holdover limit or 1 s, whichever is longer, after the entry into ACQUIRE (R25). -/
def execAcquireTimerExpiry (n : Nat) (s : State) : Host.Outcome State Fault Refusal :=
  .next (s.onLive (fun d =>
    let m := d.dom n
    match m.st, m.acqAt with
    | .acquire, some a =>
      if d.sys.uptime < a + 1000 * max m.holdLim 1000 ∨ (d.tb.pair ∧ n = 1) then d
      else
        let d := if m.ltSet then d
          else (d.updDom n (fun m => { m with freq := 0 })).setLt n 0 0 m.nomLpf (d.sys.uptime * 1000 : Nat)
        ((d.updDom n (fun m => { m with acqAt := none })).tbState n .freerun).startOuts n
    | _, _ => d))

/-- HOLDOVER_LIMIT_EXPIRY (R25). -/
def execHoldoverLimitExpiry (n : Nat) (s : State) : Host.Outcome State Fault Refusal :=
  .next (s.onLive (fun d =>
    let m := d.dom n
    match m.st, m.holdAt with
    | .holdover, some a =>
      if d.sys.uptime < a + 1000 * m.holdLim then d else (d.leaveHold n).tbState n .freerun
    | _, _ => d))

/-- FAILOVER_RETURN: LTL0 has delivered 1 s of valid in-sequence words; the pair tracks it again by slew (R32). -/
def execFailoverReturn (s : State) : Host.Outcome State Fault Refusal :=
  .next (s.onLive (fun d =>
    match (d.dom 0).backAt with
    | some a =>
      if (d.dom 0).failover && decide (a + 1000000 ≤ d.sys.uptime)
          && decide ((d.sys.uptime : Rat) ≤ ((d.dom 0).backLast : Rat) + (d.dom 0).fourLines) then
        d.updDom 0 (fun m => { m with failover := false, backAt := none, lastSeqAt := d.sys.uptime })
      else d
    | none => d))

/-- PAIR_MISMATCH_REPORT: one event in each uptime second while the mismatch persists (R32, R417). -/
def execPairMismatchReport (s : State) : Host.Outcome State Fault Refusal :=
  .next (s.onLive (fun d => if d.tb.pair && (d.dom 1).mis then d.pairMismatch else d))

/-! ### Time passes (log entry 1) -/

/-- A line of the domain starts: a new bandwidth of the DPLL comes into force (R40). -/
def Dom.lineStart (m : Dom) : Dom := { m with bw := m.bwNext.getD m.bw, bwNext := none }

/-- One microsecond of a domain: line-time runs on, W counts the wraps, a slew removes its phase error, FREERUN moves
the frequency towards nominal at 10 ppm/s (R25, R26, R28). `skew` is the error of the clock that counts. -/
def Dom.tick (m : Dom) (skew : Rat) : Dom :=
  if m.st = .disabled || !m.ltSet then m
  else
    let p := m.sub + m.speed * (1 + skew)
    let n := p.floor.toNat
    let pos := m.pos + n
    let m := if pos / 65536 = m.pos / 65536 then m else m.lineStart
    let left := if m.slewPpm = 0 then m.slew
      else if absQ m.slew ≤ 1 / 10 then 0 else m.slew - m.slewPpm / 1000
    let f := if m.st = .freerun then (if absQ m.freq ≤ 1 / 100000 then 0 else if 0 < m.freq then m.freq - 1 / 100000
                                      else m.freq + 1 / 100000) else m.freq
    { m with pos := pos % m.cycle, sub := p - (n : Rat), w := if m.cycle ≤ pos then (m.w + 1) % 2 ^ 32 else m.w,
             slew := left, freq := f }

/-- Error of the clock: none from the 25 MHz reference; without it a free value within the ±3 % of the internal
oscillator (R376, R377; log entry 39). -/
def Dev.skew (d : Dev) : Rat × Dev :=
  if d.sys.refOk then (0, d)
  else
    let x := d.drawn Config.freeRat
    (if x.1 < -3 / 100 then -3 / 100 else if 3 / 100 < x.1 then 3 / 100 else x.1, x.2)

/-- One microsecond of the device: uptime, every domain, the emergency cause. -/
def Dev.tick (d : Dev) : Dev :=
  let x := d.skew
  let d := x.2
  let d := { d with sys := { d.sys with uptime := (d.sys.uptime + 1) % 2 ^ 48 },
                    doms := Tab.mapAll (fun (_ : Nat) (m : Dom) => m.tick x.1) d.doms }
  d.emgSync

/-! ### Timebase commands (R40, R136) -/

/-- Double rate must keep the reservation under the cap (R183). DESIGN CHOICE (log entry 21): accepted on one domain of a
DISABLED pair too, though it leaves the two rate codes unequal (R31). -/
def checkTbRate (d : Dev) (dom rate drate lpf : Nat) : Option Nat :=
  firstFail [(out dom 0 3 || out rate 0 5 || out drate 0 1 || out lpf 100 8192, OUT_OF_RANGE),
    ((d.dom dom).st ≠ .disabled, BUSY),
    (d.overCapBy (fun d => d.updDom dom (fun m => { m with dbl := drate = 1 })), BUSY)]

/-- TB_RATE (R40): BASIC. -/
def applyTbRate (d : Dev) (dom rate drate lpf : Nat) : Dev :=
  d.updDom dom (fun m => { m with rate := rate, dbl := drate = 1, nomLpf := lpf, expert := false, bw := 20, bwNext := none })

/-- TB_ENABLE (R136). -/
def checkTbEnable (_d : Dev) (dom en : Nat) : Option Nat := firstFail [(out dom 0 3 || out en 0 1, OUT_OF_RANGE)]

/-- TD1 of a pair is enabled while TD0 runs: it uses TD0's clock and state from now on (R31). -/
def Dev.joinPair (d : Dev) : Dev :=
  let m := d.dom 0
  let d := d.tbState1 1 m.st
  let d := if m.ltSet then d.updDom 1 (fun x => { x with nextBlk := max x.nextBlk (d.aheadBlk 1) }) else d
  if m.outs then (d.updDom 1 (fun x => { x with outs := true, reMute := m.reMute })).retarget 2 else d

/-- Enable a domain (R25): it watches its link with the acquire timer running; W is 0 (R28). -/
def Dev.enableDom (d : Dev) (n : Nat) : Dev :=
  if (d.dom n).st ≠ .disabled then d
  else
    let d := d.updDom n (fun m => { m with ltSet := false, lpfEst := false, pos := 0, sub := 0, w := 0, freq := 0, slew := 0,
                                           run := 0, runFhi := false, acqAt := some d.sys.uptime, lockAt := none,
                                           holdAt := none, failover := false, backAt := none, outs := false,
                                           reMute := false, rangeMute := false, nextBlk := 0, anchorAt := none })
    let d := d.tbState n .acquire
    if d.tb.pair && n = 1 && (d.dom 0).st ≠ .disabled then d.joinPair else d

/-- A command is for a channel, object or port of a domain. -/
def Dev.forDom (d : Dev) (n : Nat) (c : Cmd) : Bool :=
  (List.range 48).any (fun k => (d.chan k).dom = n && Cmd.aims c (.chan k))
    || (List.range 256).any (fun o => (d.obj o).dom = n && Cmd.aims c (.obj o))
    || (List.range 4).any (fun p => (d.port p).dom = n && Cmd.aims c (.port p))
    || (match c with
        | .chEnable _ e dm => e = 1 && dm = n
        | .objSource _ s dm .. => s ≠ 0 && dm = n
        | _ => false)

/-- What a disable of the domain cancels (R418 step 1): stamped commands in its line-time or for its resources, those
included whose start an earlier command still holds back. -/
def Dev.inDom (d : Dev) (n : Nat) (t : Tag) : Bool :=
  t.atLt && ((match t.hdr with | some h => h.domain = n | none => false) || t.effs.any (fun e => e.1 = n)
    || (match t.cmd with | some c => t.effs.isEmpty && d.forDom n c | none => false))

/-- The last ramp has ended: SC stops, objects and ports of the domain fall silent with their settings kept, ASAP
commands that waited act on the stored parameters later by their own domain's blocks (R418 steps 3 and 4). -/
def Dev.domOff (d : Dev) (n : Nat) : Dev :=
  let sc := d.scNow n
  let d := d.updDom n (fun m => { m with scHold := sc, outs := false, ltSet := false, acqAt := none, holdAt := none, dis := none })
  let d := { d with
    objs := Tab.mapAll (fun (_ : Nat) (o : Obj) => if o.dom = n then { o with staged := [], present := false, lastEnd := true, lastSc := none } else o) d.objs
    ports := Tab.mapAll (fun (_ : Nat) (p : TPort) => if p.dom = n then p.relock else p) d.ports }
  let read := fun (k : Nat) => decide (k < 4096) && (d.ring k).domain = n
    && ((d.ring k).type = 1 || (d.ring k).type = 2 || (d.ring k).type = 3 || (d.ring k).type = 5)
  let d := { d with trn := { d.trn with reads := d.trn.reads.filter (fun x => !read x.stream) } }
  let d := d.forEach ((List.range 48).filter (fun c => (d.chan c).dom = n)) (fun c d =>
    d.updChan c (fun x => { x with loop := { x.loop with drv := [], up := [], upQ := [] } }))
  (d.tbState n .disabled).retarget 2

/-- TB_ENABLE (R25, R418): enabling acts at once; disabling cancels, waits for the channels' ramps and completes with
the RESULT of R123. -/
def applyTbEnable (d : Dev) (tag dom en : Nat) : Dev :=
  if en = 1 then d.enableDom dom
  else if (d.dom dom).st = .disabled then d
  else
    let ks := (d.onClock dom).filter (fun k => (d.dom k).st ≠ .disabled)
    let k := d.cancelTags tag (fun t => ks.any (fun r => d.inDom r t))
    let d := (k.1.countCancel tag k.2).updDom dom (fun m => { m with dis := some tag })
    let l := (List.range 48).filter (fun n => ks.contains (d.chan n).dom && (d.chan n).st = .switching)
    d.stopChans tag l false

/-- Domains whose disable has no ramp left to wait for stop, and their TB_ENABLE completes (R418 step 5). -/
def Dev.domSettle (d : Dev) : Dev :=
  d.forEach [0, 1, 2, 3] (fun n d =>
    match (d.dom n).dis with
    | some t =>
      if (d.tag t).st = .active && (d.tag t).waits ≠ 0 then d
      else
        let lt := d.ltNow n
        let d := if (d.tag t).st = .active then d.endDisable t n lt else d
        d.forEach (d.onClock n).reverse (fun k d => if (d.dom k).st = .disabled then d else d.domOff k)
    | none => d)

/-- TB_TIMING (R136). -/
def checkTbTiming (_d : Dev) (dom mask cable lpres hold : Nat) : Option Nat :=
  firstFail [(out dom 0 3 || out mask 0 7 || (bit mask 0 && out cable 0 4095) || (bit mask 1 && out lpres 1451 50000)
    || (bit mask 2 && (out hold 0 60000 || hold % 10 ≠ 0)), OUT_OF_RANGE)]

/-- TB_TIMING (R37, R38, R40): cable delay from the next line start, where it shows as a phase error removed by slew, L_pres at the next block boundary, the
holdover limit at once. -/
def applyTbTiming (d : Dev) (dom mask cable lpres hold : Nat) : Dev :=
  let m := d.dom dom
  let m := if bit mask 0 then { m with cable := cable } else m
  let m := if bit mask 1 then
      (if m.st = .disabled then { m with lpres := lpres } else { m with lpresNext := some lpres }) else m
  d.setDom dom (if bit mask 2 then { m with holdLim := hold } else m)

/-- TB_DPLL (R136, R40): EXPERT. -/
def checkTbDpll (_d : Dev) (dom bw : Nat) : Option Nat := firstFail [(out dom 0 3 || out bw 5 200, OUT_OF_RANGE)]
/-- TB_DPLL: from the next line start; at once where no line runs (R40, R418). -/
def applyTbDpll (d : Dev) (dom bw : Nat) : Dev :=
  d.updDom dom (fun m =>
    let m := { m with bwNext := some bw, expert := true }
    if m.st = .disabled || !(d.dom (d.clk dom)).ltSet then m.lineStart else m)

/-- TB_CLOCKMASTER (R29, R136): every output channel must be DISABLED, its soft stop over (R40). -/
def checkTbClockmaster (d : Dev) (dom : Nat) : Option Nat :=
  firstFail [(out dom 0 3, OUT_OF_RANGE), (d.chans.any (fun p => p.2.enabled || p.2.st ≠ .disabled), BUSY)]
/-- TB_CLOCKMASTER: every other domain is compared with the new one (R29). -/
def applyTbClockmaster (d : Dev) (dom : Nat) : Dev := ({ d with tb := { d.tb with master := dom } } : Dev).rateRange

/-- TB_PAIR (R31, R136, R183). -/
def checkTbPair (d : Dev) (doma domb en : Nat) (offset : Int) : Option Nat :=
  firstFail [(doma ≠ 0 || domb ≠ 1, NOT_PERMITTED), (out en 0 1 || outI offset (-4095) 4095, OUT_OF_RANGE),
    ((d.dom 0).st ≠ .disabled || (d.dom 1).st ≠ .disabled, BUSY),
    (en = 1 && (d.dom 0).rate ≠ (d.dom 1).rate, BUSY),
    (d.overCapBy (fun d => { d with tb := { d.tb with pair := en = 1 } }), BUSY)]
/-- TB_PAIR. -/
def applyTbPair (d : Dev) (en : Nat) (offset : Int) : Dev := { d with tb := { d.tb with pair := en = 1, offset := offset } }

end Sys2Proof.Machine
end

