-- ==== Sys2Proof/Machine/Loop.lean ====
section
/-! DEFINITION. The output loop (R206–R227): edges, control law, coefficients and their stability check, edge read-back,
sense overload, current sharing, soft start, identification. -/

namespace Sys2Proof.Machine

/-! ### Carrier and edges (R206–R209) -/

/-- Tc: edge steps in a carrier period (R206). -/
def Dev.tc (d : Dev) : Nat := 20 * d.period

/-- m_max (R208). -/
def Dev.mMax (d : Dev) : Rat := 1 - 984 / (d.tc : Rat)

/-- Half-width of half-bridge A for a modulation index (R207). -/
def halfA (tc : Nat) (m : Rat) : Nat := (roundI ((tc : Rat) * (1 + m) / 4)).toNat

/-- Target phase offset of a channel (R209); the partner of a bridged pair takes its primary's (R224). -/
def Dev.phaseGoal (d : Dev) (n : Nat) : Int :=
  let k := if n % 2 = 1 && (d.pr (n / 2)).bridged then n - 1 else n
  let l := (d.chan k).loop
  if l.pmode = 1 then roundI (((k * d.tc : Nat) : Rat) / 48) else roundI (((l.phase * d.tc : Nat) : Rat) / 256)

/-- An offset taken to the nearer side: above −Tc/2 up to Tc/2 (R209, R227). -/
def wrapPhase (tc : Nat) (x : Rat) : Rat := x - ((x / (tc : Rat) - 1 / 2).ceil : Int) * (tc : Rat)

/-- The offsets in force stay where they are while their goals move (R209); those of channels that do not switch, and all
of them with a new carrier period, take their goals at once (R226). -/
def Dev.slewFrom (d was : Dev) (l : List Nat) : Dev :=
  d.forEach l (fun n d => d.updChan n (fun c =>
    let moved := wrapPhase d.tc (c.loop.slip + ((was.phaseGoal n - d.phaseGoal n : Int) : Rat))
    { c with loop := { c.loop with slip := if d.period = was.period && c.st.on then moved else 0 } }))

/-- Half-width along the raised cosine of the soft start or, reversed, of the soft stop (R221). -/
def softWidth (tc us : Nat) (stop : Bool) : Nat :=
  let x : Rat := if 10000 ≤ us then 1 else (us : Rat) / 10000
  let w := (1 - cosQ (piQ * x)) / 2
  (roundI ((tc : Rat) / 4 * (if stop then 1 - w else w))).toNat

/-! ### The control law (R212) -/

/-- A Q8.24 gain. -/
def q24 (x : Int) : Rat := (x : Rat) / 16777216
/-- A Q2.30 value. -/
def q30 (x : Int) : Rat := (x : Rat) / 1073741824

/-- The states of the control law: filter voltage and current or their estimates, load-current estimate, integrators,
last command. -/
structure LawSt where
  vh : Rat
  ih : Rat
  dh : Rat
  z1 : Rat
  z2 : Rat
  up : Rat
deriving DecidableEq, Repr

/-- φ11, φ12, φ21, φ22. -/
def Coef.phiAt (c : Coef) (k : Nat) : Rat := q30 ((c.phi[k]?).getD 0)
/-- γ1, γ2. -/
def Coef.gammaAt (c : Coef) (k : Nat) : Rat := q30 ((c.gamma[k]?).getD 0)

/-- Observer: advanced by the filter model, then corrected by the errors against the advanced values (R212; log entry
61). Without the observer the sensed values are used. -/
def observe (c : Coef) (s : LawSt) (v i : Rat) : Rat × Rat × Rat :=
  if !bit c.flags 2 then (v, i, 0)
  else
    let va := Coef.phiAt c 0 * s.vh + Coef.phiAt c 1 * s.ih + Coef.gammaAt c 0 * s.up
    let ia := Coef.phiAt c 2 * s.vh + Coef.phiAt c 3 * s.ih + Coef.gammaAt c 1 * s.up
    let e := v - va
    (va + q30 c.lv * e, ia + q30 c.li * e, s.dh + q30 c.ld * (i - ia))

/-- The controller up to its limits: the advanced integrators, the estimates and the demanded bridge voltage (R212). -/
def lawDemand (c : Coef) (s : LawSt) (r v i : Rat) : LawSt × Rat :=
  let o := observe c s v i
  let z1n := if bit c.flags 0 then s.z1 + (r - o.1) else s.z1
  let z2n := if bit c.flags 1 then s.z2 + z1n else s.z2
  let u := q24 c.kr * r - q24 c.kv * o.1 - q24 c.ki * o.2.1 + q24 c.kz1 * z1n + q24 c.kz2 * z2n - q24 c.kd * o.2.2
  ({ vh := o.1, ih := o.2.1, dh := o.2.2, z1 := z1n, z2 := z2n, up := u }, u)

/-- The three prefilter stages in series (R212). -/
def prefilter (c : Coef) (h : List Rat) (x : Rat) : Rat × List Rat :=
  (List.range 3).foldl (fun (a : Rat × List Rat) k =>
    let y := biquad (((c.pre.drop (5 * k)).take 5).map q30) ((h.drop (4 * k)).take 4) a.1
    (y.1, a.2 ++ y.2)) (x, [])

/-! ### Stability check (R215) -/

/-- The closed loop over one update, without input: filter voltage and current, last command, integrators, observer.
States of parts that are switched off stay zero. -/
def closedLoop (c : Coef) (x : List Rat) : List Rat :=
  let g := fun (n : Nat) => (x[n]?).getD 0
  let s : LawSt := { vh := g 5, ih := g 6, dh := g 7, z1 := g 3, z2 := g 4, up := g 2 }
  let a := lawDemand c s 0 (g 0) (g 1)
  let obs := bit c.flags 2
  [Coef.phiAt c 0 * g 0 + Coef.phiAt c 1 * g 1 + Coef.gammaAt c 0 * g 2, Coef.phiAt c 2 * g 0 + Coef.phiAt c 3 * g 1 + Coef.gammaAt c 1 * g 2, a.2,
   if bit c.flags 0 then a.1.z1 else 0, if bit c.flags 1 then a.1.z2 else 0,
   if obs then a.1.vh else 0, if obs then a.1.ih else 0, if obs then a.1.dh else 0]

/-- Unit vector of the eight loop states. -/
def unit8 (k : Nat) : List Rat := (List.range 8).map (fun j => if j = k then 1 else 0)

/-- Columns of the closed-loop matrix. -/
def loopCols (c : Coef) : List (List Rat) := (List.range 8).map (fun k => closedLoop c (unit8 k))

/-- The matrix of columns `a` applied to a vector. -/
def matVec (a : List (List Rat)) (x : List Rat) : List Rat :=
  (List.range 8).map (fun r => sumQ ((List.range 8).map (fun k => (((a[k]?).getD [])[r]?).getD 0 * (x[k]?).getD 0)))

/-- Trace of a matrix of columns. -/
def trace8 (m : List (List Rat)) : Rat := sumQ ((List.range 8).map (fun k => (((m[k]?).getD [])[k]?).getD 0))

/-- Characteristic polynomial of an 8 × 8 matrix, coefficients from the constant term up (Faddeev–LeVerrier). -/
def charPoly (a : List (List Rat)) : List Rat :=
  let id8 := (List.range 8).map unit8
  let r := (List.range 8).foldl (fun (acc : List (List Rat) × List Rat) k =>
    let am := acc.1.map (fun col => matVec a col)
    let ck := -(trace8 am) / ((k + 1 : Nat) : Rat)
    (am.mapIdx (fun j col => col.mapIdx (fun i v => if i = j then v + ck else v)), ck :: acc.2)) (id8, [1])
  r.2

/-- Schur–Cohn test: all roots of a polynomial (constant term first) lie inside the unit circle. -/
def schur : Nat → List Rat → Bool
  | 0, _ => true
  | n + 1, p =>
    let a0 := p.headD 0
    let an := (p[n + 1]?).getD 0
    if absQ an ≤ absQ a0 then false
    else schur n ((List.range (n + 1)).map (fun k => an * (p[k + 1]?).getD 0 - a0 * (p[n - k]?).getD 0))

/-- The closed-loop spectral radius is below 0.995 (R215). -/
def loopStable (c : Coef) : Bool :=
  schur 8 ((charPoly (loopCols c)).mapIdx (fun k v => v * (995 / 1000 : Rat) ^ k))

/-- A coefficient set has a field out of range (R214). -/
def coefBad (c : Coef) : Bool :=
  out c.flags 0 31 || out c.vfs 1000 48000 || out c.ulim 1000 60000 || out c.ffAlpha 1 (2 ^ 31)

/-! ### Limits in force (R243) -/

/-- Smallest of the three levels of a limit. -/
def least (a b c : Nat) : Nat := min a (min b c)
/-- Envelope of a channel. -/
def Dev.env (d : Dev) (n : Nat) : Env := Tab.get Env.reset d.nvm.env n
/-- VMAX_eff in V. -/
def Dev.vmax (d : Dev) (n : Nat) : Rat := let p := (d.chan n).prot; (least (d.env n).vmax p.vmax p.pVmax : Rat) / 100
/-- TMAX_eff in °C. -/
def Dev.tmax (d : Dev) (n : Nat) : Rat := let p := (d.chan n).prot; (least (d.env n).tmax p.tmax p.pTmax : Rat) / 10
/-- XMAX_eff in m. -/
def Dev.xmax (d : Dev) (n : Nat) : Rat := let p := (d.chan n).prot; (least (d.env n).xmax p.xmax p.pXmax : Rat) / 1000000
/-- PLONG_eff in W. -/
def Dev.plong (d : Dev) (n : Nat) : Rat := let p := (d.chan n).prot; (least (d.env n).plong p.plong p.pPlong : Rat) / 10

/-- The hard clamp of the loop reference to ±VMAX_eff; a clamped update is counted (R255). -/
def Dev.clampRef (d : Dev) (n : Nat) (r : Rat) : Rat × Dev :=
  let lim := d.vmax n
  if absQ r ≤ lim then (r, d)
  else (clampQ (-lim) lim r, d.updChan n (fun c =>
    { c with prot := { c.prot with vclamp := satInc 65535 c.prot.vclamp, vclamped := true } }))

/-! ### One loop update (R212) -/

/-- Tuning in force: the identification tuning until coefficients are set (R216). -/
def Chan.tuning (c : Chan) : Coef :=
  if c.st = .identify || !c.loop.coefSet then Config.identTuning else c.loop.coef

/-- Loop updates between two samples of a domain: 32, or 16 at double rate, in the clock master's time; elsewhere times the
ratio of the clock master's frequency to the domain's (R29, R211). -/
def Dev.upSpan (d : Dev) (dm : Nat) : Rat :=
  let k := d.clk dm
  let c := d.clk d.tb.master
  let span : Rat := if (d.dom k).blk = 64 then 16 else 32
  if k = c then span
  else span * (1000000 + (if (d.dom c).st = .disabled then 0 else (d.dom c).freq)) / (1000000 + (d.dom k).freq)

/-- The interpolator one loop update on: the next rendered sample enters its span when its phase has come (R29, R211; log
entry 5). -/
def Loop.upStep (l : Loop) (span : Rat) : Loop :=
  let ph := l.upPh + 1
  if span ≤ ph then { l with up := (l.upQ.headD 0 :: l.up).take 23, upQ := l.upQ.tail, upPh := ph - span }
  else { l with upPh := ph }

/-- The interpolated drive: the samples within 174 updates of the centre, weighted by a kernel that is the same on both
sides of it, so the group delay is 174 updates (R211). -/
def Loop.upValue (l : Loop) (span : Rat) (double : Bool) : Rat :=
  sumQ (l.up.mapIdx (fun k x =>
    let t := absQ (l.upPh + (k : Rat) * span - 174)
    if x = 0 ∨ 174 ≤ t then 0 else x * Config.upKernel double t))

/-- Loop updates of the 16 ms of a chirp (R216). -/
def chirpLen : Nat := 24576

/-- Reference of a channel in volts, for an interpolator already at this update: while the drive is closed zero, in an
identification the chirp and then zero (R216, R227), 0.50 V in the second step of a probe (R267), otherwise the interpolated drive times VFS; layer 6 acts at every
update, and the hard clamp last (R14, R211, R255). -/
def Dev.reference (d : Dev) (n : Nat) : Rat × Dev :=
  let c := d.chan n
  let g := d.emg.value d.sys.uptime
  match c.st with
  | .switching =>
    let dm := c.dom
    let x := c.loop.upValue (d.upSpan dm) (decide ((d.dom (d.clk dm)).blk = 64))
    if x = 0 then (0, d) else d.clampRef n (x * g * ((c.tuning.vfs : Rat) / 1000))
  | .softStart => if c.flt.probe = 2 then d.clampRef n (1 / 2) else (0, d)
  | .identify => if c.loop.idN < chirpLen then d.clampRef n (clampQ (-1) 1 (Config.chirp c.loop.idN) * g) else (0, d)
  | _ => (0, d)

/-- Half-widths of the two half-bridges: the ramp of the soft start or stop with the differential at zero, or those of the
index (R207, R221). -/
def Dev.halves (d : Dev) (n : Nat) (m : Rat) : Nat × Nat :=
  let c := d.chan n
  let tc := d.tc
  let us := d.sys.uptime - c.since
  match c.st with
  | .softStart => if c.flt.probe = 2 then (halfA tc m, tc / 2 - halfA tc m) else (softWidth tc us false, softWidth tc us false)
  | .softStop => (softWidth tc us true, softWidth tc us true)
  | _ => (halfA tc m, tc / 2 - halfA tc m)

/-- The update of a bridged pair's partner: its primary's command with the current-sharing term of the hardware, which the
manual does not state and which is therefore free (R224; log entry 5); the primary's rail filter and carrier offset. -/
def Dev.followStep (d : Dev) (n : Nat) : Dev :=
  let p := d.chan (n - 1)
  let c := d.chan n
  let k := p.tuning
  let lim := minQ ((k.ulim : Rat) / 1000) (d.mMax * p.loop.pf)
  let u := clampQ (-lim) lim (p.loop.uPrev + Config.shareTerm p.loop.lastI c.loop.lastI)
  let m := clampQ (-d.mMax) d.mMax (if bit k.flags 3 then u / p.loop.pf else u / 36)
  let w := d.halves n m
  d.setChan n { c with loop := { c.loop with uPrev := u, m := m, hA := w.1, hB := w.2, pf := p.loop.pf, ref := p.loop.ref,
                                             slip := p.loop.slip, carClk := p.loop.carClk } }

/-- The update of a channel whose transistors are on, for sensed voltage and current in V and A and the die's PVDD in V
(R212): limited, with the modulation index within ±m_max (R208); clipped updates and an update with a decimation reset
hold the integrators (R239). A carrier period that ends, 800 clocks to an update, moves the offset (R209). -/
def Dev.loopStep (d : Dev) (n : Nat) (v i pv : Rat) : Dev :=
  let span := d.upSpan (d.chan n).dom
  let d := d.updChan n (fun c => { c with loop := c.loop.upStep span })
  let rd := d.reference n
  let d := rd.2
  let c := d.chan n
  let l := c.loop
  let k := match l.coefNext with
    | some x => if c.st = .identify then c.tuning else x
    | none => c.tuning
  let r0 := if bit k.flags 4 then prefilter k l.pre rd.1 else (rd.1, l.pre)
  let a := lawDemand k { vh := l.vh, ih := l.ih, dh := l.dh, z1 := l.z1, z2 := l.z2, up := l.uPrev } r0.1 v i
  let lim := minQ ((k.ulim : Rat) / 1000) (d.mMax * l.pf)
  let high : Bool := decide (lim < absQ a.2)
  let u := if high then (if a.2 < 0 then -lim else lim) else a.2
  let zl : Rat := (k.zlim : Rat) / 65536
  let pf := l.pf + (k.ffAlpha : Rat) / 2147483648 * (pv - l.pf)
  let m := if bit k.flags 3 then u / pf else u / 36
  let clip : Bool := high || decide (d.mMax < absQ m)
  let m := clampQ (-d.mMax) d.mMax m
  let keep := clip || l.holdInt
  let tc := d.tc
  let w := d.halves n m
  let clk := l.carClk + 800
  let step : Rat := if d.period ≤ clk then (tc : Rat) / 256 else 0
  let l' := { l with pre := r0.2, vh := a.1.vh, ih := a.1.ih, dh := a.1.dh,
                     z1 := if keep then l.z1 else clampQ (-zl) zl a.1.z1,
                     z2 := if keep then l.z2 else clampQ (-zl) zl a.1.z2,
                     modClip := if clip then satInc (2 ^ 32 - 1) l.modClip else l.modClip,
                     pf := pf, m := m, uPrev := u, hA := w.1, hB := w.2, ref := rd.1, holdInt := false, idN := satInc chirpLen l.idN,
                     slip := l.slip - clampQ (-step) step l.slip, carClk := clk % d.period }
  let l' := match l.coefNext with
    | some x => if c.st = .identify then l' else { l' with coef := x, coefSet := true, coefNext := none }
    | none => l'
  d.setChan n { c with loop := l' }

/-- Sensed values that an update uses: those of the last update after a corrupted frame (R12). DESIGN CHOICE (log entry 75):
after a second corrupted frame in a row, the same old values once more. -/
def Dev.sensed (d : Dev) (n : Nat) (v i : Rat) : Rat × Rat × Dev :=
  let l := (d.chan n).loop
  if l.replaced then (l.lastV, l.lastI, d.updChan n (fun c => { c with loop := { c.loop with replaced := false } }))
  else (v, i, d.updChan n (fun c => { c with loop := { c.loop with lastV := v, lastI := i } }))

/-- Share error of a bridged pair above 20 % of the sum (R224). -/
def Dev.shareBad (d : Dev) (p : Nat) : Bool :=
  let a := (d.chan (2 * p)).loop.lastI
  let b := (d.chan (2 * p + 1)).loop.lastI
  decide (absQ (a + b) / 5 < absQ (a - b))

/-- Since when a condition holds: the earlier uptime, or now, or none while it does not. -/
def sinceWhen (on : Bool) (was : Option Nat) (now : Nat) : Option Nat :=
  if on then some (was.getD now) else none

/-- Follow the pair's share error: the uptime since which it lasts. -/
def Dev.shareWatch (d : Dev) (p : Nat) : Dev :=
  if !(d.pr p).bridged then d
  else
    let c := d.chan (2 * p)
    let at_ := sinceWhen (d.shareBad p && c.st.on) c.loop.shareAt d.sys.uptime
    d.setChan (2 * p) { c with loop := { c.loop with shareAt := at_ } }

/-- Count consecutive updates of modulator overload (R210). -/
def Loop.overload (l : Loop) (ov : Nat) : Loop :=
  { l with ovV := if bit ov 0 then satInc 8 l.ovV else 0, ovI := if bit ov 1 then satInc 8 l.ovI else 0 }

/-- Overloads of the two sense chains, by loop update (R413). -/
def Dev.countOvl (d : Dev) (n ov : Nat) : Dev :=
  let one := fun (x : Chain) (k : Nat) => { x with ovl := if bit ov k then satInc 65535 x.ovl else x.ovl }
  (d.updChain n (fun x => one x 0)).updChain (n + 48) (fun x => one x 1)

/-- LOOP_UPDATE: one controller update of channel `n` (R212): the modulators' bits of the update, oldest first, pass the sense
chains, whose LOOP taps the controller reads (R228, R231); the die's PVDD in mV, and the modulators' overload bits. The
partner of a bridged pair follows its primary (R224). -/
def execLoopUpdate (n : Nat) (v i : List Bool) (pvdd ov : Nat) (s : State) : Host.Outcome State Fault Refusal :=
  .next (s.onLive (fun d =>
    if 48 ≤ n ∨ !d.engines then d
    else
      let d := (d.senseStep n v i).countOvl n ov
      let o := d.tapOut n 0
      let x := d.sensed n o.1 o.2
      let d := x.2.2.updChan n (fun c => { c with loop := c.loop.overload ov })
      let d := d.updDie (dieOf n) (fun k => { k with mv := pvdd })
      let d := d.shareWatch (n / 2)
      if !(d.chan n).st.on then d.emgSync
      else if d.isPartner n then (d.followStep n).emgSync
      else (d.loopStep n x.1 x.2.1 ((pvdd : Rat) / 1000)).emgSync))

/-- UPSTREAM_FRAME_CORRUPT: a die's upstream frame is corrupted: counted, and its channels' next update uses the
previous sense values, for at most one update (R12). -/
def execUpstreamFrameCorrupt (k : Nat) (s : State) : Host.Outcome State Fault Refusal :=
  .next (s.onLive (fun d =>
    if 6 ≤ k then d
    else
      let d := d.updDie k (fun x => { x with frameBad := satInc (2 ^ 32 - 1) x.frameBad })
      d.forEach (List.range 8) (fun j d => d.updChan (8 * k + j) (fun c => { c with loop := { c.loop with replaced := true } }))))

/-! ### Edge read-back (R218, R219), overload and sharing -/

/-- How a returned crossing relates to a commanded edge (R218, R219). -/
def edgeMissing : Nat := 1
/-- A crossing with no commanded edge. -/
def edgeSpurious : Nat := 2

/-- EDGE_STAMP: a crossing of half-bridge `b` (false A, true B) of channel `n`: kind 0 with its mismatch in edge steps,
1 a missing edge, 2 a spurious one; `cut` marks an edge cut short by the current limit, checked against the trip
(R218). Four mismatches of any 16 edges, a missing or a spurious edge are a stage fault; a crossing beyond four windows
leaves its edge missing (R219). -/
def execEdgeStamp (n : Nat) (b : Bool) (kind : Nat) (mismatch : Int) (cut : Bool) (s : State) :
    Host.Outcome State Fault Refusal :=
  .next (s.onLive (fun d =>
    let c := d.chan n
    if 48 ≤ n ∨ !(c.st.on || d.justShut n) then d
    else if kind = edgeMissing ∨ kind = edgeSpurious ∨ (!cut ∧ 4 * c.flt.edgewin < mismatch.natAbs) then d.shutdown n 0x22 0x0B08 (twos 64 mismatch)
    else
      let bad : Bool := decide (c.flt.edgewin < mismatch.natAbs) && !cut
      let win := (bad :: (if b then c.loop.winB else c.loop.winA)).take 16
      let l := if b then { c.loop with winB := win } else { c.loop with winA := win }
      let l := if bad then { l with edgeErr := satInc (2 ^ 32 - 1) l.edgeErr } else l
      let d := d.setChan n { c with loop := l }
      if 4 ≤ (win.filter (· = true)).length && c.flt.probe = 0 then
        (d.updChan n (fun c => { c with loop := { c.loop with winA := [], winB := [] } })).shutdown n 0x22 0x0B08 (twos 64 mismatch)
      else d))

/-- SENSE_OVERLOAD: a sense modulator has been in overload for 8 consecutive updates: a stage fault (R210, R219). -/
def execSenseOverload (n : Nat) (current unstable : Bool) (s : State) : Host.Outcome State Fault Refusal :=
  .next (s.onLive (fun d =>
    let l := (d.chan n).loop
    let cnt := if current then l.ovI else l.ovV
    if 48 ≤ n ∨ cnt < 8 then d
    else
      let d := d.updChan n (fun c => { c with loop := if current then { c.loop with ovI := 0 } else { c.loop with ovV := 0 } })
      d.shutdown n 0x21 0x0B0D (b2n current + 2 * b2n unstable)))

/-- SHARE_FAULT: the share error of bridged pair `p` has lasted 10 ms: a stage fault of the pair (R224). The event codes
of R160 name none for it; its Mordant record carries the edge-fault event of R219 (log entry 22). -/
def execShareFault (p : Nat) (s : State) : Host.Outcome State Fault Refusal :=
  .next (s.onLive (fun d =>
    match (d.chan (2 * p)).loop.shareAt with
    | some a =>
      if 24 ≤ p ∨ d.sys.uptime < a + 10000 then d
      else (d.updChan (2 * p) (fun c => { c with loop := { c.loop with shareAt := none } })).shutdown (2 * p) 0x23 0x0B08 0
    | none => d))

/-! ### Sequencing events (R216, R220, R221) -/

/-- SOFT_START_DONE: 10 ms of soft start have passed: the second step of a probe, the identification where it is due,
or the drive opens, for both channels of a bridged pair (R220, R224, R267). -/
def execSoftStartDone (n : Nat) (s : State) : Host.Outcome State Fault Refusal :=
  .next (s.onLive (fun d =>
    let c := d.chan n
    if c.st ≠ .softStart ∨ d.sys.uptime < c.since + 10000 then d
    else d.forEach (d.mates n) (fun m d =>
      if c.flt.probe = 1 then
        (d.updFlt m (fun f => { f with probe := 2 })).updChan m (fun c => { c with since := d.sys.uptime })
      else if c.flt.probe ≠ 0 then d
      else if c.firstId then d.enter m .identify
      else d.openDrive m)))

/-- The basic coefficients of a channel from its identification and profile (R216). -/
def Dev.basicCoef (d : Dev) (n : Nat) : Coef :=
  let c := d.chan n
  { Config.basicTuning c.f0 c.q c.prot.pZ d.period with vfs := c.prot.pVfs }

/-- A basic input for a channel at EXPERT level is ignored and counted (R122). -/
def Dev.basicIgnored (d : Dev) (n : Nat) : Dev := d.updChan n (fun c => { c with basicIgn := satInc (2 ^ 32 - 1) c.basicIgn })

/-- IDENTIFICATION_DONE: 20 ms of identification have passed and Ramcen has fitted f0 in Hz and Q in 1/100 (R216,
R226): accepted, basic coefficients at BASIC and the drive opens; rejected, the channel latches with FILTER_ID. A bridged
pair is identified as one load (R224; log entry 22). -/
def execIdentificationDone (n f0 q : Nat) (s : State) : Host.Outcome State Fault Refusal :=
  .next (s.onLive (fun d =>
    let c := d.chan n
    if c.st ≠ .identify ∨ d.sys.uptime < c.since + 20000 ∨ !d.sys.ready then d
    else
      let fc : Rat := 1228800000 / (d.period : Rat)
      let ok : Bool := decide (25000 ≤ f0 ∧ f0 ≤ 150000 ∧ (f0 : Rat) < fc / 4 ∧ 30 ≤ q ∧ q ≤ 500)
      let d := d.forEach (d.mates n) (fun m d =>
        d.updChan m (fun c => { c with f0 := f0, q := q, firstId := !ok, idRan := true, idOk := ok }))
      if ok then d.forEach (d.mates n) (fun m d =>
        let d := if (d.chan m).loopExpert then d.basicIgnored m
          else d.updChan m (fun c => { c with loop := { c.loop with coefNext := some (d.basicCoef m) } })
        (d.openDrive m).idRelease m)
      else
        let d := match c.idTag with
          | some t => d.updTag t (fun t => { t with rstatus := HW_FAULT, result := t.result ||| 2 ^ n })
          | none => d
        d.latch n 0x20))

/-- SOFT_STOP_DONE: the soft stop has run its 10 ms: DISABLED, both channels of a bridged pair (R220, R221, R224). -/
def execSoftStopDone (n : Nat) (s : State) : Host.Outcome State Fault Refusal :=
  .next (s.onLive (fun d =>
    let c := d.chan n
    if c.st ≠ .softStop ∨ d.sys.uptime < c.since + 10000 then d
    else d.forEach (d.mates n) (fun m d => if (d.chan m).enabled then d.start m false else d.enter m .disabled)))

end Sys2Proof.Machine
end

