-- ==== Sys2Proof/Machine/Protection.lean ====
section
/-! DEFINITION. Speaker protection (R242–R262): thermal model and fusion, thermal, excursion and long-term limiting,
the envelope clamp, the rail budget, and the protection commands. -/

namespace Sys2Proof.Machine

/-! ### Model parameters in SI units (R247, R251) -/

/-- Temperature coefficient of the coil (R246). -/
def alphaOf (c : ConstSet) : Rat := if bit c.flags 0 then 403 / 100000 else 393 / 100000

/-- Coil resistance at a temperature, in Ω (R246). -/
def Prot.rc (p : Prot) (t : Rat) : Rat :=
  (p.ts.re : Rat) / 1000 * (1 + alphaOf p.const * (t - (p.const.t0 : Rat) / 10))

/-- Duration of a block in s (R246: 666.7 µs). -/
def blkS : Rat := 1 / 1500

/-- Change the protection state of a channel. -/
def Dev.updProt (d : Dev) (n : Nat) (f : Prot → Prot) : Dev := d.updChan n (fun c => { c with prot := f c.prot })

/-! ### Thermal model, limiting and long-term power (R246, R250, R254) -/

/-- thermal_block of R246. -/
def Prot.thermal (p : Prot) (i2 hf2 : Rat) : Prot × Rat :=
  let k := p.const
  let pc := i2 * p.rc p.tc
  let pe := (k.ke : Rat) / 1000000 * hf2
  let qcm := (p.tc - p.tm) * 1000 / (k.rthCm : Rat)
  let qmf := (p.tm - p.tf) * 1000 / (k.rthMf : Rat)
  let qfa := (p.tf - p.ta) * 1000 / (k.rthFa : Rat)
  ({ p with tc := p.tc + blkS * (pc - qcm) * 1000 / (k.cthC : Rat),
            tm := p.tm + blkS * (qcm + pe - qmf) * 1000 / (k.cthM : Rat),
            tf := p.tf + blkS * (qmf - qfa) * 1000 / (k.cthF : Rat) }, pc)

/-- Product of the layer 4 gains in force (R250). -/
def Prot.layer4 (p : Prot) : Rat := p.gx * p.gt * p.gp * p.gf * p.gr

/-- A gain moves to its target by at most some 1/256 dB down or up. -/
def slewGain (g target down up : Rat) : Rat :=
  if target < g then maxQ target (g * dbGain (-down))
  else if g < target then minQ target (if g = 0 then target else g * dbGain up) else g

/-- Thermal gain target (R250): none where the manual states no value, no coil power against none allowed. -/
def Prot.gtTarget (p : Prot) (tmax : Rat) : Option Rat :=
  let k := p.const
  if p.tc ≤ tmax - (k.knee : Rat) / 10 then some 1
  else
    let allow := maxQ 0 ((k.cthC : Rat) / 1000 * (tmax - p.tc) * 10 / (k.horizon : Rat) + (p.tc - p.tm) * 1000 / (k.rthCm : Rat))
    let pu := meanQ p.pHist
    if pu ≤ 0 then (if 0 < allow then some 1 else none) else some (minQ 1 (sqrtQ (allow / pu)))

/-- The thermal gain for the coming block: at most 1.0 dB down per block, 0.5 dB up per second (R250). -/
def Prot.setGt (p : Prot) (target : Rat) : Prot := { p with gt := slewGain p.gt target 256 (128 / 1500) }

/-- P_long and its gain (R254). -/
def Prot.longTerm (p : Prot) (pw plong : Rat) : Prot :=
  let avg := p.pAvg + blkS / (p.const.tauLong : Rat) * (pw - p.pAvg)
  let q : Rat := 256 / 10 / 1500
  { p with pAvg := avg, gp := if plong < avg then slewGain p.gp 0 q q
                              else if avg < plong * 9 / 10 then slewGain p.gp 1 q q else p.gp }

/-- Coil power referred to unity gain, of the last 16 blocks (R250). A block of no gain has no such value: free. -/
def Dev.keepPower (d : Dev) (n : Nat) (pc : Rat) : Dev :=
  let p := (d.chan n).prot
  let g := p.layer4
  let r : Rat × Dev := if g = 0 then (if pc = 0 then (0, d) else d.drawn Config.freeRat) else (pc / (g * g), d)
  r.2.updProt n (fun p => { p with pHist := (r.1 :: p.pHist).take 16 })

/-- The models' step of one block from what the chains measured (R246, R250, R254). -/
def Dev.protModels (d : Dev) (n : Nat) : Dev :=
  let m := (d.chan n).sums
  let t := (d.chan n).prot.thermal (m.mean m.i2) (m.mean m.hf2)
  let d := (d.updProt n (fun _ => t.1)).keepPower n t.2
  let r : Rat × Dev := match (d.chan n).prot.gtTarget (d.tmax n) with
    | some g => (g, d)
    | none => let x := d.drawn Config.freeRat; (clampQ 0 1 x.1, x.2)
  r.2.updProt n (fun p => (p.setGt r.1).longTerm (m.mean m.p) (r.2.plong n))

/-! ### Look-ahead gains (R252, R255) -/

/-- Smallest of a list of numbers that are at most 1. -/
def least1 (l : List Rat) : Rat := l.foldl minQ 1

/-- The samples' needs of the last L/2 − 1 samples before the held block, the held block and the look-ahead block,
oldest first. -/
def needSpan (L : Nat) (older held ahead : List Rat) : List Rat :=
  let k := L / 2 - 1
  ((List.replicate (k - older.length) 1) ++ (older.take k).reverse) ++ held ++ ahead

/-- Weighted mean over the attack window; weights that sum to 1 give the common value of equal needs. -/
def hannMean (h : Nat) (m : List Rat) : Rat :=
  let a := m.headD 1
  if m.all (· = a) then a
  else
    let w := (List.range h).map (fun k => Config.hann h k)
    sumQ (List.zipWith (· * ·) w m) / sumQ w

/-- The one-pole release (R252): each sample at most its attack gain. -/
def release (r : Rat) : Rat → List Rat → List Rat
  | _, [] => []
  | g, a :: t => let x := minQ a (r * g + (1 - r)); x :: release r x t

/-- Gains of the held block (R252): the smallest need around each sample, smoothed, then the release of time constant
`tau` in ms. -/
def lookGains (L fs tau : Nat) (need : List Rat) (g0 : Rat) : List Rat :=
  if g0 = 1 && need.all (· = 1) then List.replicate L 1
  else
    let h := L / 2
    let m := (List.range (L + h - 1)).map (fun t => least1 ((need.drop t).take (2 * h - 1)))
    let ga := (List.range L).map (fun t => hannMean h ((m.drop t).take h))
    release (expQ (-(1000 : Rat) / ((fs * tau : Nat) : Rat))) g0 ga

/-! ### Excursion (R251–R253) -/

/-- All samples are zero. -/
def quiet (l : List Rat) : Bool := l.all (· = 0)

/-- Run the model over a drive: displacements, currents, last state. A linear model at rest without drive stays there. -/
def excRun (ts : TsSet) (r : Rat) (fs : Nat) (st : Rat × Rat × Rat) (v : List Rat) :
    List Rat × List Rat × (Rat × Rat × Rat) :=
  if st = (0, 0, 0) && quiet v then (v, v, st)
  else
    let a := v.foldl (fun (a : List Rat × List Rat × (Rat × Rat × Rat)) x =>
      let s := Config.excStep ts r fs a.2.2 x
      (s.1 :: a.1, s.2.2 :: a.2.1, s)) ([], [], st)
    (a.1.reverse, a.2.1.reverse, a.2.2)

/-- Need of a sample from its free and forced displacement (R252). -/
def needX (xlim xf xd : Rat) : Rat := if absQ xd = 0 then 1 else minQ 1 (maxQ 0 (xlim - absQ xf) / absQ xd)

/-- The dynamic high-pass over a block, its coefficients moving linearly from the old corner to the new (R253). -/
def Prot.highPass (p : Prot) (fs : Nat) (x : List Rat) : List Rat × List Rat :=
  if p.fhp = 0 ∨ (quiet x ∧ quiet p.hp) then (x, p.hp)
  else
    let n : Rat := (x.length : Rat)
    let r := x.foldl (fun (a : List Rat × List Rat × Nat) v =>
      let w : Rat := ((a.2.2 + 1 : Nat) : Rat) / n
      let k := (List.range 5).map (fun j =>
        Config.hpCoef p.fhpWas fs j + (Config.hpCoef p.fhp fs j - Config.hpCoef p.fhpWas fs j) * w)
      let y := biquad k a.2.1 v
      (y.1 :: a.1, y.2, a.2.2 + 1)) ([], p.hp, 0)
    (r.1.reverse, r.2.1)

/-- Keep a corner within HPMIN–HPMAX; HPMIN = 0 switches the stage off (R253). -/
def clampHp (t : TsSet) (f : Rat) : Rat :=
  if t.hpmin = 0 then 0 else clampQ ((t.hpmin : Rat) / 10) ((t.hpmax : Rat) / 10) f

/-- The corner for the next block from the share of the limit that the forced response takes (R253). -/
def Prot.nextHp (p : Prot) (rho : Rat) : Prot :=
  let thr := (p.ts.hpthr : Rat) / 65536
  let f := if thr < rho then p.fhp * exp2Q (1 / 3) else if rho < thr / 2 then p.fhp * exp2Q (-1 / 24) else p.fhp
  { p with fhpWas := p.fhp, fhp := clampHp p.ts f }

/-- Follow the coil resistance: rediscretised where it has moved by more than 0.5 % (R251). -/
def Prot.rediscretise (p : Prot) : Prot :=
  let r := p.rc p.tc
  if p.rDisc = 0 ∨ absQ (p.rDisc) / 200 < absQ (r - p.rDisc) then { p with rDisc := r } else p

/-- Stages 1–5 of layer 4 (R242): the look-ahead block `x`, the product of layers 1–3, enters; the held block leaves
them as `stage`, and its demand is formed (R256). The split starts from the model's state at the held block (log
entry 23). -/
def Prot.shape (p : Prot) (L fs : Nat) (vfs xmax : Rat) (x : List Rat) : Prot × List Rat :=
  let p := p.rediscretise
  let h := p.highPass fs x
  let s : List Rat := if quiet h.1 then h.1 else h.1.map (· * vfs)
  let held := if p.held.length = L then p.held else List.replicate L 0
  let xlim := xmax * 95 / 100
  let st := (p.mx, p.mu, p.mi)
  let free := (excRun p.ts p.rDisc fs st (List.replicate (2 * L) 0)).1
  let forced := (excRun p.ts p.rDisc fs (0, 0, 0) (held ++ s)).1
  let need := List.zipWith (needX xlim) free forced
  let gx := lookGains L fs p.ts.release (needSpan L p.need (need.take L) (need.drop L)) p.gx
  let v := List.zipWith (· * ·) held gx
  let run := excRun p.ts p.rDisc fs st v
  let beyond : Bool := decide (xmax < maxOf (run.1.map absQ))
  let fold := fun (k : Nat) => p.gfWas + (p.gf - p.gfWas) * ((k + 1 : Nat) : Rat) / (L : Rat)
  let out := v.mapIdx (fun k y => y * (p.gt * p.gp * fold k))
  let cur := (excRun p.ts p.rDisc fs st out).2.1
  let dem := meanQ (List.zipWith (fun a b => maxQ 0 (a * b)) out cur)
  let rho := if xlim = 0 then 0 else maxOf ((forced.drop L).map absQ) / xlim
  let p := { p with hp := h.2, held := s, stage := out, gx := (gx.getLast?).getD p.gx,
                    need := ((need.take L).reverse).take (L / 2 - 1),
                    mx := run.2.2.1, mu := run.2.2.2.1, mi := run.2.2.2.2,
                    xlim := if beyond then satInc 65535 p.xlim else p.xlim }
  (p.nextHp rho, [dem, least1 gx])

/-- Audio demand (R256): predicted watts times κ over 0.95 × PVDD_f. κ compares the measured demand of the previous
block with its prediction; where nothing was predicted and there is demand now, its value is not stated: free. -/
def Dev.demand (d : Dev) (n : Nat) (measured dem : Rat) : Dev :=
  let c := d.chan n
  let p := c.prot
  let k : Rat × Dev :=
    if p.predDem ≠ 0 then (clampQ (1 / 2) 2 (measured / p.predDem), d)
    else if dem = 0 then (p.kappa, d)
    else let x := d.drawn Config.freeRat; (clampQ (1 / 2) 2 x.1, x.2)
  k.2.updProt n (fun p => { p with kappa := k.1, predDem := dem,
                                   ia := k.1 * dem / (95 / 100 * c.loop.pf) })

/-! ### Rail budget (R256–R258) -/

/-- Reservations of 0.20 A that the channel's state and accepted commands call for (R258, R285). -/
def Dev.railWant (d : Dev) (n : Nat) : Nat :=
  let c := d.chan n
  let starting : Bool := c.st = .softStart || c.st = .identify
  let coming : Bool := d.tags.any (fun e => e.2.uncommitted &&
    (match e.2.cmd with
      | some (.chEnable m en _) => en = 1 && (d.mates n).any (bit m) && !c.enabled
      | some (.faultClear m) => (d.mates n).any (bit m) && c.st = .latched
      | _ => false))
  let test : Bool := d.tags.any (fun e => e.2.uncommitted &&
    (match e.2.cmd with
      | some (.diagRun m ..) | some (.diagTones m ..) | some (.acoustic m ..) => bit m n
      | _ => false))
  b2n (starting || coming) + b2n (test || c.diag.ph ≠ .idle)

/-- Recount the reservations: while the processor is down they are kept as held (R258). -/
def Dev.railCount (d : Dev) : Dev :=
  d.forEach (List.range 48) (fun n d =>
    let w := d.railWant n
    let had := (d.chan n).prot.resv
    let v := if d.sys.ready then w else max had w
    if v = had then d else d.updProt n (fun p => { p with resv := v }))

/-- The channels whose demand counts: switching ones; the partner of a bridged pair has none (R224, R256). -/
def Dev.railChans (d : Dev) : List Nat :=
  (List.range 48).filter (fun n => (d.chan n).st.on && !(n % 2 = 1 && (d.pr (n / 2)).bridged))

/-- Trim target of the arbiter (R257): none for a budget that is used up. -/
def Dev.trim (d : Dev) : Option Rat :=
  let quiescent := ((List.range 48).filter (fun n => (d.chan n).st.on)).length
  let resv := ((List.range 48).map (fun n => (d.chan n).prot.resv)).sum
  let b : Rat := (d.railBudget : Rat) / 10 - (quiescent : Rat) / 500 - (resv : Rat) / 5
  let ia := sumQ (d.railChans.map (fun n => (d.chan n).prot.ia))
  if b ≤ 0 then none else if ia ≤ b then some 1 else some (sqrtQ (b / ia))

/-- The rail arbiter (R257): one target for every channel, a rise at most 0.5 dB per block. -/
def Dev.arbiter (d : Dev) : Dev :=
  let d := d.railCount
  let t := d.trim
  d.forEach (List.range 48) (fun n d =>
    let p := (d.chan n).prot
    let goal := t.getD 0
    let g := if p.gr < goal then slewGain p.gr goal 0 128 else goal
    let cnt := if t.isNone && (d.chan n).st.on then satInc 65535 p.railOver else p.railOver
    if g = p.grT && cnt = p.railOver then d else d.updProt n (fun p => { p with grT := g, railOver := cnt }))

/-- CREDIT of a channel in mA (R257). -/
def Dev.creditOf (d : Dev) (n : Nat) : Nat :=
  let c := d.chan n
  let ia := if c.st.on then c.prot.ia else 0
  (if c.st.on then 2 else 0) + 200 * c.prot.resv + (roundI (c.prot.grT * c.prot.grT * ia * 1000)).toNat

/-! ### Trim, clamp and report (R255, R257, R259) -/

/-- The gains that a block's samples saw fell below −0.1 dB. -/
def under01 (g : Rat) : Bool := decide (g < dbGain (-256 / 10))

/-- PGAIN: a gain in 1/256 dB, at least −128 dB. -/
def pgainOf (g : Rat) : Int := max (-32768) (gainDb g)

/-- PROT_LIMIT: OPEN below −3 dB, CLOSE above −1 dB (R160). -/
def Dev.limitEvent (d : Dev) (n : Nat) : Dev :=
  let c := d.chan n
  let p := c.prot
  let data := p.pcause + twos 16 p.pgain * 65536
  if !p.limOpen && decide (p.pgain < -768) then
    (d.updProt n (fun p => { p with limOpen := true })).raiseIn c.dom 0x0501 n data 1
  else if p.limOpen && decide (-256 < p.pgain) then
    (d.updProt n (fun p => { p with limOpen := false })).raiseIn c.dom 0x0501 n data 4
  else d

/-- The last stages of a block: rail trim, envelope clamp, the drive that the loop receives, and the report. `gxMin` is
the smallest excursion gain of the block. -/
def Dev.protFinish (d : Dev) (n L fs : Nat) (gxMin : Rat) : Dev :=
  let c := d.chan n
  let p := c.prot
  let vmax := d.vmax n
  let stp : Rat := (p.grT - p.gr) / (L : Rat)
  let v := p.stage.mapIdx (fun k x => x * (p.gr + stp * ((k + 1 : Nat) : Rat)))
  let lim := vmax * 97 / 100
  let nd := fun (x : Rat) => if absQ x = 0 then (1 : Rat) else minQ 1 (lim / absQ x)
  let g := p.gt * p.gp * p.gf * p.grT
  let ahead := (p.held.take L).map (fun x => nd (x * g))
  let need := v.map nd
  let gc := lookGains L fs 50 (needSpan L p.needC need ahead) p.gc
  let out := List.zipWith (· * ·) v gc
  let gcE := (gc.getLast?).getD p.gc
  let cause := b2n (under01 p.gt) + 2 * b2n (under01 gxMin || decide ((p.ts.hpmin : Rat) / 10 < p.fhp))
    + 4 * b2n (under01 p.gp) + 8 * b2n (under01 (minQ p.gr p.grT)) + 16 * b2n (under01 (least1 gc) || p.vclamped)
    + 32 * b2n (under01 (minQ p.gf p.gfWas))
  let p' := { p with gr := p.grT, gc := gcE, needC := (need.reverse).take (L / 2 - 1), vclamped := false,
                     pcause := cause, pgain := pgainOf (p.gx * p.gt * p.gp * p.gf * p.grT * gcE) }
  let vfs : Rat := (c.tuning.vfs : Rat) / 1000
  let drv := if quiet out then out else out.map (· / vfs)
  let d := d.setChan n { c with prot := p', loop := { c.loop with drv := drv } }
  (d.updProt n (fun p => { p with credit := d.creditOf n })).limitEvent n

/-- The partner of a bridged pair mirrors its primary (R224, R262). -/
def Dev.protMirror (d : Dev) (n : Nat) : Dev :=
  let a := d.chan (n - 1)
  d.updChan n (fun c => { c with prot := { c.prot with pgain := a.prot.pgain, pcause := a.prot.pcause, ia := 0, credit := d.creditOf n },
                                 loop := { c.loop with drv := a.loop.drv } })

/-! ### Estimation windows and fusion (R248, R249) -/

/-- fuse of R249. -/
def Prot.fuse (p : Prot) (rm : Rat) : Prot :=
  let k := p.const
  let a := alphaOf k
  let tMeas := (k.t0 : Rat) / 10 + (rm * 1000 / (p.ts.re : Rat) - 1) / a
  let raw := tMeas - p.tc
  let e := clampQ (-20) 20 raw
  { p with tc := p.tc + (k.kc : Rat) / 65536 * e,
           ta := clampQ (-40) 100 (p.ta + (k.ka : Rat) / 65536 * e),
           fclamp := if e = raw then p.fclamp else satInc 65535 p.fclamp }

/-- A resistance measured in Ω: rejected outside 0.5–2.5 × RE, else reported and, with FUSE, fused (R248, R249). -/
def Prot.accept (p : Prot) (rm : Rat) : Prot :=
  let re : Rat := (p.ts.re : Rat) / 1000
  if rm < re / 2 ∨ re * 5 / 2 < rm then { p with rejects := satInc 65535 p.rejects }
  else
    let p := { p with rmeas := (roundI (rm * 1000)).toNat }
    if bit p.const.flags 2 then p.fuse rm else p

/-- ESTIMATION_WINDOW_END: the 32 blocks of a MEASURE window of channel `n` have passed: R_meas = Σ (v − v_mot)·i / Σ i² over
its samples; a window of less than 30 mA rms, or one that overlaps a reset or an invalid period, is not valid (R248). -/
def execEstimationWindowEnd (n : Nat) (_vi _mot _i2 : Own) (s : State) : Host.Outcome State Fault Refusal :=
  .next (s.onLive (fun d =>
    let p := (d.chan n).prot
    if 48 ≤ n ∨ p.winBlk < 32 ∨ bit p.const.flags 1 then d
    else
      let w := (d.chan n).sums
      let valid : Bool := !p.winBad && decide (1024 * (9 / 10000) ≤ w.ii)
      let d := (d.updProt n (fun p => { p with winBlk := 0, winBad := !d.tapValid n 2 })).updSums n Sums.window
      if valid then d.updProt n (fun p => p.accept ((w.vi - w.motI) / w.ii)) else d))

/-- Re Z_mot of the excursion model at a frequency in Hz (R248, R251), in Ω. -/
def motional (t : TsSet) (f : Rat) : Rat :=
  let w := 2 * piQ * f
  let bl : Rat := (t.bl : Rat) / 10000
  let r : Rat := (t.rms : Rat) / 1000
  let x := w * (t.mms : Rat) / 1000000 - 1000000000 / (w * (t.cms : Rat))
  bl * bl * r / (r * r + x * x)

/-- A pilot result of real part `re` Ω ends a window with PILOT = 1 (R248). -/
def Dev.pilotWindow (d : Dev) (n : Nat) (re f : Rat) : Dev :=
  if bit (d.chan n).prot.const.flags 1 then d.updProt n (fun p => p.accept (re - motional p.ts f)) else d

/-! ### Commands (R149, R243–R247, R251) -/

/-- The counters of R259 are cleared. -/
def Prot.clear (p : Prot) : Prot := { p with rejects := 0, fclamp := 0, xlim := 0, vclamp := 0, railOver := 0 }

/-- The channels of a mask include one whose envelope is locked, and the sender is PF0 (R244). -/
def Dev.lockedFor (d : Dev) (sender mask : Nat) : Bool := sender = 2 && (chList mask).any (fun n => (d.env n).lock)

/-- A CONST set is out of range, or breaks the thermal step rule: every product of a node's capacity and an adjacent
resistance is at least 10 ms (R244, R247). -/
def constBad (c : ConstSet) : Bool :=
  let rc := fun (r k : Nat) => decide (r * k < 10000)
  out c.flags 0 7 || outI c.t0 (-400) 1000 || outI c.ta0 (-400) 1000 || out c.rthCm 100 100000
    || out c.rthMf 100 100000 || out c.rthFa 100 100000 || out c.cthC 10 100000 || out c.cthM 1000 10000000
    || out c.cthF 1000 10000000 || out c.ke 0 10000000 || out c.ka 0 4096 || out c.tauLong 1 3600 || out c.knee 10 500
    || out c.horizon 1 600
    || rc c.rthCm c.cthC || rc c.rthCm c.cthM || rc c.rthMf c.cthM || rc c.rthMf c.cthF || rc c.rthFa c.cthF

/-- A TS set is out of range (R251). -/
def tsBad (t : TsSet) : Bool :=
  out t.re 1000 64000 || out t.le 0 10000000 || out t.bl 1000 500000 || out t.mms 100 500000 || out t.cms 1000 50000000
    || out t.rms 10 50000 || (t.hpmin ≠ 0 && out t.hpmin 100 2000) || out t.hpmax t.hpmin 4000
    || out t.hpthr 16384 65535 || out t.release 10 2000

/-- PROT_PROFILE (R149, R245). -/
def checkProtProfile (d : Dev) (mask prof : Nat) : Option Nat :=
  firstFail [(d.namesPartner mask, NOT_PERMITTED), (badMask 48 mask || decide (65535 ≤ prof)
    || (prof ≠ 0 && !Config.hasProfile d.nvm.lib.version prof), OUT_OF_RANGE)]

/-- A profile's values for a channel: profile 0 as R245 gives it, the others from the library (Config). -/
def Prot.load (p : Prot) (lib prof : Nat) : Prot :=
  let f := fun (k g : Nat) => if prof = 0 then g else Config.profileField lib prof k
  let t := if prof = 0 then TsSet.generic else Config.profileTs lib prof
  { p with profile := prof, const := if prof = 0 then ConstSet.generic else Config.profileConst lib prof, ts := t,
           pVmax := f 0 800, pTmax := f 1 1000, pXmax := f 2 1000, pPlong := f 3 20, pZ := f 4 8000, pVfs := f 5 8000,
           expert := false, fhp := clampHp t p.fhp, fhpWas := clampHp t p.fhp }

/-- PROT_PROFILE: another profile clears the reference class (R291); protection and loop return to BASIC with every expert
value: the carrier's default stagger (R122, R209), and the basic tuning anew where the loop has been identified (R216,
R245). -/
def applyProtProfile (d : Dev) (mask prof : Nat) : Dev :=
  d.forEach (chList mask) (fun n d =>
    let d := if (d.chan n).prot.profile = prof then d
      else { d with nvm := { d.nvm with refClass := Tab.set d.nvm.refClass n 255 } }
    let was := d
    let d := (d.updChan n (fun c => { c with prot := (c.prot.load d.nvm.lib.version prof).clear, loopExpert := false,
                                             loop := { c.loop with pmode := 1, phase := 0 } })).slewFrom was (d.mates n)
    if (d.chan n).firstId then d
    else d.updChan n (fun c => { c with loop := { c.loop with coefNext := some (d.basicCoef n) } }))

/-- PROT_THERMAL (R149, R244, R247). -/
def checkProtThermal (d : Dev) (sender mask : Nat) (c : ConstSet) : Option Nat :=
  firstFail [(d.namesPartner mask || d.lockedFor sender mask, NOT_PERMITTED), (badMask 48 mask || constBad c, OUT_OF_RANGE)]
/-- PROT_THERMAL. -/
def applyProtThermal (d : Dev) (mask : Nat) (k : ConstSet) : Dev :=
  d.forEach (chList mask) (fun n d => d.updProt n (fun p => ({ p with const := k, expert := true } : Prot).clear))

/-- PROT_TS (R149, R244, R251). -/
def checkProtTs (d : Dev) (sender mask : Nat) (t : TsSet) : Option Nat :=
  firstFail [(d.namesPartner mask || d.lockedFor sender mask, NOT_PERMITTED), (badMask 48 mask || tsBad t, OUT_OF_RANGE)]
/-- PROT_TS. -/
def applyProtTs (d : Dev) (mask : Nat) (t : TsSet) : Dev :=
  d.forEach (chList mask) (fun n d => d.updProt n (fun p =>
    ({ p with ts := t, expert := true, fhp := clampHp t p.fhp, fhpWas := clampHp t p.fhp } : Prot).clear))

/-- A working limit is out of its range; 0xFFFF stands for the envelope (R149, R154). -/
def limBad (v lo hi : Nat) : Bool := v ≠ 65535 && out v lo hi
/-- A working limit lies above the envelope. -/
def limOver (v env : Nat) : Bool := v ≠ 65535 && decide (env < v)

/-- PROT_LIMITS (R149). -/
def checkProtLimits (d : Dev) (mask vmax tmax xmax plong : Nat) : Option Nat :=
  firstFail [(d.namesPartner mask, NOT_PERMITTED), (badMask 48 mask || limBad vmax 100 6000 || limBad tmax 200 2500 || limBad xmax 100 20000
      || limBad plong 1 600, OUT_OF_RANGE),
    ((chList mask).any (fun n => let e := d.env n
      limOver vmax e.vmax || limOver tmax e.tmax || limOver xmax e.xmax || limOver plong e.plong), ENVELOPE)]
/-- PROT_LIMITS. -/
def applyProtLimits (d : Dev) (mask vmax tmax xmax plong : Nat) : Dev :=
  d.forEach (chList mask) (fun n d => d.updProt n (fun p =>
    { p with vmax := vmax, tmax := tmax, xmax := xmax, plong := plong }))

/-- RAIL_BUDGET (R149). -/
def checkRailBudget (d : Dev) (b : Nat) : Option Nat :=
  firstFail [(out b 50 400, OUT_OF_RANGE), (decide (d.nvm.rail < b), ENVELOPE)]
/-- RAIL_BUDGET. -/
def applyRailBudget (d : Dev) (b : Nat) : Dev := { d with railBudget := b }

end Sys2Proof.Machine
end

