-- ==== Sys2Proof/Machine/Decimation.lean ====
section
/-! DEFINITION. The decimation chains: presets, coefficient banks, the DC-blocking stage, the rules for chains that feed a
running loop (R228–R241), and the DSYNC reset by pin and by command (R39, R238). -/

namespace Sys2Proof.Machine

/-! ### Chains and channels (R228, R229) -/

/-- The two sense chains of a channel. -/
def sense (n : Nat) : List Nat := [n, n + 48]

/-- The channel's chains feed a running loop: it is not DISABLED, or its pair's primary is not. -/
def Dev.feeds (d : Dev) (n : Nat) : Bool :=
  (d.chan n).st ≠ .disabled || (n % 2 = 1 && (d.pr (n / 2)).bridged && (d.chan (n - 1)).st ≠ .disabled)

/-- The chain feeds a running loop. -/
def Dev.chainFeeds (d : Dev) (c : Nat) : Bool := decide (c < 96) && d.feeds (c % 48)

/-- A running test of a channel uses the chain (R231, R237). -/
def Dev.inTest (d : Dev) (c : Nat) : Bool :=
  (List.range 48).any (fun n =>
    let t := (d.chan n).diag
    t.ph = .run && (if c < 96 then c % 48 = n else t.kind = 4 && bit t.mics (c - 96)))

/-- The capture group of a microphone chain has a MIC ring that is not DISABLED. -/
def Dev.micRing (d : Dev) (c : Nat) : Bool :=
  d.rings.any (fun p => p.2.type = 6 && p.2.st ≠ .disabled && bit ((d.pdm.gmask[p.2.bind]?).getD 0) (c - 96))

/-- Rule 1 of R237: both chains of a channel whose chains feed a running loop, or neither; all four of a bridged pair
(R241). -/
def Dev.splits (d : Dev) (mask : Nat) : Bool :=
  (List.range 48).any (fun n => d.feeds n && bit mask n ≠ bit mask (n + 48))
    || (List.range 24).any (fun p => (d.pr p).bridged && d.feeds (2 * p) && bit mask (2 * p) ≠ bit mask (2 * p + 1))

/-- A swap is pending on the chain: a DEC_SWAP that selects it has not ended (R233). -/
def Dev.swapping (d : Dev) (c : Nat) : Bool :=
  d.tags.any (fun p => p.2.st = .active && (match p.2.cmd with | some (.decSwap m) => bit m c | _ => false))

/-- The faults common to the four commands on a mask: rule 5, then rule 1. -/
def Dev.chainBusy (d : Dev) (mask : Nat) : Bool := (chainList mask).any d.inTest || d.splits mask

/-! ### Banks -/

/-- The incoming bank of a swap. -/
def Chain.incoming (x : Chain) : Option (List Int) := x.bank (1 - x.active)

/-- Coefficients without the zeros behind the last one. -/
def trimTaps (l : List Int) : List Int := (l.reverse.dropWhile (· = 0)).reverse

/-- Two incoming banks hold the same coefficients: of two standard banks, the same preset's. -/
def sameBank (x y : Chain) : Bool :=
  match x.incoming, y.incoming with
  | none, none => x.preset = y.preset
  | some a, some b => trimTaps a = trimTaps b
  | _, _ => false

/-- Sum of a bank's coefficients; a standard bank has unit gain (log entry 26). -/
def bankSum : Option (List Int) → Rat
  | none => 1
  | some l => (l.foldl (· + ·) 0 : Int) / (2147483648 : Rat)

/-- Group delay of a tap's standard FIR in output samples (R230): 0.405 µs, 1.112 µs (7.813 µs on a microphone chain, CIC
aside), 166.667 µs and 416.667 µs at the tap's rate. -/
def stdDelay (mic : Bool) (t : Nat) : Rat :=
  match t with
  | 0 => 405 * 1536 / 1000000
  | 1 => if mic then 3 / 2 else 1112 * 192 / 1000000
  | 2 => 8
  | _ => 5

/-- Group delay at DC of a sense chain's bank for tap `t`, in output samples (R230, R237). -/
def bankDelay (t : Nat) : Option (List Int) → Rat
  | none => stdDelay false t
  | some l =>
    let s : Int := l.foldl (· + ·) 0
    let m : Int := (l.mapIdx (fun k h => (k : Int) * h)).foldl (· + ·) 0
    (m : Rat) / (s : Rat)

/-- Rules 3 and 4 of R237 on a channel's two chains. -/
def Dev.swapBad (d : Dev) (n : Nat) : Bool :=
  let v := d.chain n
  let i := d.chain (n + 48)
  let sum := fun (x : Chain) => decide (absQ (bankSum x.incoming - 1) ≤ 1 / 100)
  let delay := fun (x : Chain) => x.preset ≠ 0 ||
    decide (absQ (bankDelay x.preset x.incoming - bankDelay x.preset (x.bank x.active)) ≤ 1 / 4)
  !(sameBank v i && sum v && sum i && delay v && delay i)

/-! ### Checks and effects (R157, R232–R234, R237) -/

/-- DEC_PRESET: LOOP and SURVEY are refused on a microphone chain (R157); rules 1, 2, 5 and 6 of R237: on chains that feed a
running loop neither to LOOP nor away from it. -/
def checkDecPreset (d : Dev) (mask preset : Nat) : Option Nat :=
  let l := chainList mask
  firstFail [(badMask 128 mask || out preset 0 3 || l.any (fun c => decide (96 ≤ c) && (preset = 0 || preset = 3)), OUT_OF_RANGE),
    (d.chainBusy mask || l.any (fun c => d.chainFeeds c && (preset = 0 || (d.chain c).preset = 0))
      || l.any (fun c => decide (96 ≤ c) && d.micRing c), BUSY)]

/-- DEC_PRESET's effect on one chain: standard coefficients in both banks, A active, BASIC, corner 2.0 Hz, no command
freeze; a pending swap of the chain is CANCELLED (R232, R241). -/
def applyDecPreset (d : Dev) (tag mask preset : Nat) : Dev :=
  let d := (d.cancelTags tag (fun t => match t.cmd with
    | some (.decSwap m) => m &&& mask ≠ 0
    | _ => false)).1
  d.forEach (chainList mask) (fun c d => d.updChain c (fun x =>
    { x with preset := preset, bankA := none, bankB := none, active := 0, corner := 20, cmdFreeze := false,
             expert := false }))

/-- DEC_FIR: the active bank and a bank with a swap pending are in use (R157, R233). -/
def checkDecFir (d : Dev) (mask bank ntaps : Nat) : Option Nat :=
  firstFail [(badMask 128 mask || out bank 0 1 || out ntaps 1 64, OUT_OF_RANGE),
    (d.chainBusy mask || (chainList mask).any (fun c => (d.chain c).active = bank || d.swapping c), BUSY)]

/-- DEC_FIR: the bank's coefficients; those beyond NTAPS are zero (R233). -/
def applyDecFir (d : Dev) (mask bank : Nat) (taps : List Int) : Dev :=
  d.forEach (chainList mask) (fun c d => d.updChain c (fun x =>
    if bank = 0 then { x with bankA := some taps, expert := true } else { x with bankB := some taps, expert := true }))

/-- DEC_SWAP: rules 1, 3, 4 and 5 of R237. -/
def checkDecSwap (d : Dev) (mask : Nat) : Option Nat :=
  firstFail [(badMask 128 mask, OUT_OF_RANGE),
    (d.chainBusy mask || (List.range 48).any (fun n => d.feeds n && bit mask n && d.swapBad n), BUSY)]

/-- DEC_SWAP: the other bank is active from the tap's next output on (R233). -/
def applyDecSwap (d : Dev) (mask : Nat) : Dev :=
  d.forEach (chainList mask) (fun c d => d.updChain c (fun x => { x with active := 1 - x.active, expert := true }))

/-- DEC_DCBLOCK: CORNER 0 leaves the corner unchanged (R157). -/
def checkDecDcblock (d : Dev) (mask corner freeze : Nat) : Option Nat :=
  firstFail [(badMask 128 mask || (corner ≠ 0 && out corner 5 200) || out freeze 0 1, OUT_OF_RANGE),
    (d.chainBusy mask, BUSY)]

/-- DEC_DCBLOCK: corner and command freeze; e is kept (R234). -/
def applyDecDcblock (d : Dev) (mask corner freeze : Nat) : Dev :=
  d.forEach (chainList mask) (fun c d => d.updChain c (fun x =>
    { x with corner := if corner = 0 then x.corner else corner, cmdFreeze := freeze = 1, expert := true }))

/-! ### Validity (R236) -/

/-- The 16 chains of a power die. -/
def dieChains (k : Nat) : List Nat := (List.range 8).map (· + 8 * k) ++ (List.range 8).map (· + 8 * k + 48)

/-- PVDD of a die has returned: its chains restart with the empty histories that its loss left; e is kept. -/
def Dev.chainsRestart (d : Dev) (k : Nat) : Dev :=
  d.forEach (dieChains k) (fun c d => d.updChain c (fun x => { x with restartAt := some d.sys.uptime }))

/-- PVDD of a die has left its range: its chains deliver zero with their histories cleared, and windows in progress on its channels overlap an invalid period (R236, R248). -/
def Dev.chainsInvalid (d : Dev) (k : Nat) : Dev :=
  let d := d.forEach (dieChains k) (fun c d => d.updChain c Chain.clear)
  d.forEach ((List.range 8).map (· + 8 * k)) (fun n d => d.updChan n (fun c =>
    { c with prot := { c.prot with winBad := true },
             diag := { c.diag with pilBad := true, failed := c.diag.failed || c.diag.ph = .run } }))

/-! ### DSYNC (R39, R238, R239) -/

/-- Reset the phase of every chain at once. A running loop's next update holds its integrators (R239); estimation and
pilot windows that contain the reset are discarded (R241, R248). -/
def Dev.phaseReset (d : Dev) (lt source : Nat) : Dev :=
  let now := d.sys.uptime
  let d := d.forEach (List.range 128) (fun c d => d.updChain c (fun x => { x with resetAt := now, rstDue := true }))
  let d := d.forEach (List.range 48) (fun n d => d.updChan n (fun c =>
    { c with loop := { c.loop with holdInt := c.loop.holdInt || c.st ≠ .disabled },
             prot := { c.prot with winBad := true },
             diag := c.diag.dsync now }))
  d.raiseLt lt 0x0A01 0 source 0

/-- DSYNC_N_EDGE: a falling edge of DSYNC_N, `qualified` where the pin was low on 5 consecutive modulator clocks: accepted
at least 1 ms after the previous accepted edge; others are ignored and counted (R39). -/
def execDsyncNEdge (qualified : Bool) (s : State) : Host.Outcome State Fault Refusal :=
  .next (s.onLive (fun d =>
    let late := match d.tb.dsyncAt with
      | none => true
      | some t => decide (t + 1000 ≤ d.sys.uptime)
    if qualified && late then
      ({ d with tb := { d.tb with dsyncAt := some d.sys.uptime } }).phaseReset d.cmLt 0
    else { d with tb := { d.tb with dsyncIgn := satInc 65535 d.tb.dsyncIgn } }))

/-- The DSYNC command's effect at its stamped line-time (R39). -/
def applyDsync (d : Dev) (lt : Nat) : Dev := d.phaseReset lt 1

end Sys2Proof.Machine
end

