-- ==== Sys2Proof/Machine/Mailbox.lean ====
section
/-! DEFINITION. The mailbox file (R87–R103): doorbells, acknowledgements, timeouts and upstream notices. -/

namespace Sys2Proof.Machine

/-- The path reaches the register block of a channel (R87): PF1 MB0–MB7, PF0 the others, the two-wire window MB62. -/
def pathOwns (p : Path) (ch : Nat) : Bool :=
  match p with
  | .pf0 => decide (8 ≤ ch ∧ ch < 64)
  | .pf1 => decide (ch < 8)
  | .tw => ch = 62

/-- Number of a register path. -/
def pathNo : Path → Nat
  | .pf0 => 0 | .pf1 => 1 | .tw => 2

/-- A register access over this path can reach the running device: a function needs its link (R66). -/
def Dev.onPath (d : Dev) (p : Path) : Bool :=
  match p with
  | .pf0 | .pf1 => d.live && d.link.up
  | .tw => d.live

/-- The port a path reaches on a channel: MB62's sideband set from the two-wire window (R88). -/
def isSide (p : Path) : Bool := match p with | .tw => true | _ => false

/-- A port of a channel. -/
def Mbx.port (m : Mbx) (side : Bool) : Port := if side then m.p1 else m.p0
/-- Replace a port of a channel. -/
def Mbx.setPort (m : Mbx) (side : Bool) (p : Port) : Mbx := if side then { m with p1 := p } else { m with p0 := p }
/-- Change a port of a channel. -/
def Mbx.updPort (m : Mbx) (side : Bool) (f : Port → Port) : Mbx := m.setPort side (f (m.port side))

/-- Downstream slots in use: notices and acknowledgements not yet read (R92, R99). -/
def Mbx.dnUsed (m : Mbx) : Nat := m.fifo.length + m.p0.acks.length + m.p1.acks.length
/-- The sideband port holds its one slot (R90). -/
def Mbx.sideUsed (m : Mbx) : Bool := m.fifo.any (·.side) || !m.p1.acks.isEmpty

/-- Acknowledge a notice with a code: it leaves the FIFO, the acknowledgement enters its port's queue, and a host port
gets its message (R92, R93). -/
def Dev.ackNotice (d : Dev) (ch : Nat) (n : Notice) (code : Nat) : Dev :=
  let d := d.updMbx ch (fun m =>
    let m := { m with fifo := m.fifo.erase n,
                      discard := if code = RESET_DISCARD then satInc 65535 m.discard else m.discard }
    m.updPort n.side (fun p => { p with acks := p.acks ++ [{ tag := n.tag, code := code, late := n.late }] }))
  if n.side then d else d.mbxMsg ch

/-! ### Acceptance of a descriptor (R91, R98, R113–R115) -/

/-- Master ID of the sender that a descriptor comes from. -/
def Dev.senderOf (d : Dev) (v : Via) : Nat :=
  match v with
  | .ring k => (d.ring k).owner + 2
  | .mbx ch => mbxFn ch + 2
  | .sideband => 4

/-- Where its completion goes: CPL ring, or a direct reply with its address and the channel that signals it (R77, R91,
R98); in recovery mode always the reply (R349). -/
def Dev.cplOf (d : Dev) (h : Hdr) : Option Nat × Nat × Option Nat :=
  match h.via with
  | .ring k => (some (d.ring k).bind, 0, none)
  | .mbx ch => (if d.sys.recovery then none else (d.mbx ch).cpl, h.reply, some ch)
  | .sideband => (none, h.reply, none)

/-- The descriptor comes from MB62's sideband port. -/
def Via.side (v : Via) : Bool := match v with | .sideband => true | _ => false
/-- It comes through a mailbox, so its payload lies behind it (R111). -/
def Via.inline (v : Via) : Bool := match v with | .ring _ => false | _ => true

/-- A record without a tag (R115). -/
def Dev.noTag (d : Dev) (h : Hdr) (op status : Nat) : Dev :=
  let r := d.cplOf h
  let x : Tless := { tag := h.tag, status := status, opcode := op, ring := r.1, side := Via.side h.via,
                     fn := fnOf (d.senderOf h.via), reply := r.2.1, ch := r.2.2, asap := !h.atLt, heldRec := false }
  { d with tless := d.tless ++ [x] }

/-- The tag of an accepted descriptor, with the binding now in force (R98, R114). -/
def Dev.takeTag (d : Dev) (h : Hdr) (op : Nat) : Dev :=
  let r := d.cplOf h
  let t : Tag := { Tag.reset with
    st := .active, ph := .waiting, hdr := some h, opcode := op, sender := d.senderOf h.via, side := Via.side h.via,
    ring := r.1, reply := r.2.1, order := d.accepts, cmd := none }
  { d.setTag h.tag t with accepts := d.accepts + 1 }

/-- The tag check (R115): the tag is taken, or a record without one falls due. -/
def Dev.tagCheck (d : Dev) (h : Hdr) (op : Nat) : Dev × Bool :=
  if !ownTag (d.senderOf h.via) h.tag then (d.noTag h op NOT_PERMITTED, false)
  else if (d.tag h.tag).st ≠ .free then (d.noTag h op BUSY, false)
  else (d.takeTag h op, true)

/-! ### Doorbells, acknowledgements and timeouts (R88–R95) -/

/-- DN_TMO of a port rises for the notices that a condition picks (R94): RECEIVER_DOWN replaces TIMEOUT, never the
other way; a rise sends the host port's message. -/
def Dev.tmoRise (d : Dev) (ch : Nat) (side : Bool) (code : Nat) (hit : Notice → Bool) : Dev :=
  let up := ((d.mbx ch).port side).tmo
  let d := d.updMbx ch (fun m =>
    let m := { m with fifo := m.fifo.map (fun (n : Notice) => if n.side = side && hit n then { n with late := true } else n) }
    m.updPort side (fun p =>
      { p with tmo := true, tmoCode := if p.tmo && p.tmoCode = 0x0203 then 0x0203 else code }))
  if !up && !side then d.mbxMsg ch else d

/-- A notice has waited for the channel timeout (R94). -/
def Mbx.overdue (m : Mbx) (now : Nat) (n : Notice) : Bool := decide (n.since + m.tmoMs * 1000 ≤ now)

/-- It has waited for longer than that (R88). -/
def Mbx.overlong (m : Mbx) (now : Nat) (n : Notice) : Bool := decide (n.since + m.tmoMs * 1000 < now)

/-- Step 2 of R90: what the mailbox file answers at once, if anything. -/
def Mbx.hwCheck (m : Mbx) (n : Notice) : Option Nat :=
  let reply := (n.len + 31) / 32 * 32
  if n.side then
    if n.len < 64 ∨ 224 < n.len then some BAD_LENGTH
    else if 3 < n.ptr then some BAD_POINTER
    else if 256 < n.ptr * 64 + reply + 32 then some BAD_LENGTH
    else none
  else
    if n.len < 64 then some BAD_LENGTH
    else if 2 ^ 38 < n.ptr * 64 + n.len ∨ (m.cpl.isNone ∧ 2 ^ 38 < n.ptr * 64 + reply + 32) then some BAD_POINTER
    else none

/-- A whole 64-bit write of MBX_DB (R90): dropped without a slot, else queued, while RCV_DOWN with a rise of the timeout
flag (R94), and perhaps answered at once. -/
def Dev.postNotice (d : Dev) (side : Bool) (ch v : Nat) : Dev :=
  let m := d.mbx ch
  if 16 ≤ m.dnUsed ∨ (side ∧ m.sideUsed) then
    d.updMbx ch (fun m => { m.updPort side (fun p => { p with ovf := true }) with ovfCnt := satInc 65535 m.ovfCnt })
  else
    let len := bits v 47 32
    let n : Notice := { side := side, ptr := v % 2 ^ 32, len := if len = 0 then 65536 else len, tag := bits v 63 48,
                        st := .queued, since := d.sys.uptime, late := false }
    let d := d.updMbx ch (fun m => { m with fifo := m.fifo ++ [n] })
    let d := if d.sys.ready then d else d.tmoRise ch side 0x0203 (fun _ => true)
    match m.hwCheck n with
    | some code => d.ackNotice ch { n with late := !d.sys.ready } code
    | none => d

/-- MBX_DB_WRITE: a write to MBX_DB; `whole` when it is one aligned 64-bit write or eight bytes of one two-wire
transfer (R89); any other is discarded and counted. -/
def execMbxDbWrite (p : Path) (ch : Nat) (whole : Bool) (v : Nat) (s : State) : Host.Outcome State Fault Refusal :=
  .next (s.onLive (fun d =>
    if !d.onPath p || !pathOwns p ch then d
    else if !whole then d.updPath (pathNo p) (fun r => { r with eMbx := satInc 255 r.eMbx })
    else d.postNotice (isSide p) ch (v % 2 ^ 64)))

/-- Bytes of the sideband window from an offset. -/
def winBytes (w : List Host.Cell) (off n : Nat) : List Byte :=
  (List.range n).map (fun k => Tab.get 0 w (off + k))

/-- Bytes read. -/
def bytesOf (l : List Byte) : List Nat := l.map BitVec.toNat

/-- A notice's message has been copied: its command tag is taken, where it may be, and the notice is ACCEPTED; the
descriptor's other fields are checked at COMMAND_ACCEPT (R91, R92, R115). -/
def Dev.noticeData (d : Dev) (ch : Nat) (n : Notice) (bytes : List Byte) : Dev :=
  let via : Via := if n.side then .sideband else .mbx ch
  let reply := n.ptr * 64 + (n.len + 31) / 32 * 32
  let b := bytesOf bytes
  let h := hdrOf via n.len reply b
  let x := d.tagCheck h (fld b 0 2)
  let raw : Raw := { via := via, len := n.len, reply := reply, tag := some h.tag, bytes := bytes.take n.len }
  let d := if x.2 then { x.1 with fetched := x.1.fetched ++ [raw] } else x.1
  d.ackNotice ch n 1

/-- The taken notice of a channel. -/
def Mbx.takenHead (m : Mbx) : Option Notice := m.fifo.find? (fun n => n.st = .taken)

/-- Bytes an MBX_ACK read returns (R88). -/
def Port.ackWord (p : Port) : Nat :=
  match p.acks with
  | [] => 0
  | a :: t => a.tag + a.code * 2 ^ 16 + 2 ^ 32 + t.length * 2 ^ 33 + b2n a.late * 2 ^ 37

/-- A read of MBX_ACK; one that includes byte 0 removes the acknowledgement and frees its slot (R89). -/
def Dev.ackRead (d : Dev) (side : Bool) (ch : Nat) (byte0 : Bool) : Dev :=
  let p := (d.mbx ch).port side
  let d := d.answer (le 8 p.ackWord)
  if byte0 && d.live then d.updMbx ch (fun m => m.updPort side (fun p => { p with acks := p.acks.drop 1 })) else d

/-- MBX_ACK_READ (R89). -/
def execMbxAckRead (p : Path) (ch : Nat) (byte0 : Bool) (s : State) : Host.Outcome State Fault Refusal :=
  .next (s.onLive (fun d => if d.onPath p && pathOwns p ch then d.ackRead (isSide p) ch byte0 else d))

/-- Withdraw a port's queued notices with CANCELLED (R95). -/
def Dev.withdraw (d : Dev) (side : Bool) (ch : Nat) : Dev :=
  ((d.mbx ch).fifo.filter (fun n => n.side = side && n.st = .queued)).foldl (fun d n => d.ackNotice ch n CANCELLED) d

/-- WDRAW (R95). -/
def execWdraw (p : Path) (ch : Nat) (s : State) : Host.Outcome State Fault Refusal :=
  .next (s.onLive (fun d => if d.onPath p && pathOwns p ch then d.withdraw (isSide p) ch else d))

/-- The condition under which DN_TMO rises again after it was cleared (R88, R94). -/
def Dev.tmoAgain (d : Dev) (side : Bool) (ch : Nat) : Dev :=
  let m := d.mbx ch
  let mine := m.fifo.filter (fun n => n.side = side)
  if !d.sys.ready && !mine.isEmpty then d.tmoRise ch side 0x0203 (fun _ => true)
  else if mine.any (m.overlong d.sys.uptime) then d.tmoRise ch side 0x0300 (m.overlong d.sys.uptime)
  else d

/-- Clear DN_TMO and TMO_CODE; the flag rises again at once while a case of R94 is in force (R88). -/
def Dev.tmoClear (d : Dev) (side : Bool) (ch : Nat) : Dev :=
  (d.updMbx ch (fun m => m.updPort side (fun p => { p with tmo := false, tmoCode := 0 }))).tmoAgain side ch

/-- DN_TMO_CLEAR (R88, R94). -/
def execDnTmoClear (p : Path) (ch : Nat) (s : State) : Host.Outcome State Fault Refusal :=
  .next (s.onLive (fun d => if d.onPath p && pathOwns p ch then d.tmoClear (isSide p) ch else d))

/-- MAILBOX_TIMEOUT: DN_TMO rises once a notice of the port has waited for the channel timeout (R94). -/
def execMailboxTimeout (ch : Nat) (side : Bool) (s : State) : Host.Outcome State Fault Refusal :=
  .next (s.onLive (fun d =>
    let m := d.mbx ch
    if m.fifo.any (fun n => n.side = side && m.overdue d.sys.uptime n) then
      d.tmoRise ch side 0x0300 (m.overdue d.sys.uptime)
    else d))

/-- Bytes of an upstream message: the 32-byte header and its body (R161). -/
def Dev.upBytes (d : Dev) (u : UpMsg) : List Nat :=
  le 2 u.type ++ le 2 0 ++ le 4 d.sys.epoch ++ le 8 d.cmLt ++ le 16 0 ++ u.body

/-- Lowest free slot of the upstream buffer (R96). -/
def Mbx.freeSlot (m : Mbx) : Nat := ((List.range 16).find? (fun k => m.up.all (·.slot ≠ k))).getD 0

/-- Post one waiting upstream message (R96): written into a free slot, its notice posted with one message; refused
while the buffer is not configured, the owner is fenced or the link is down; it waits while all slots are in use. -/
def Dev.postUp (d : Dev) (ch : Nat) (pick : Nat × UpMsg → Bool) : Dev :=
  let m := d.mbx ch
  match m.repost.find? pick with
  | none => d
  | some w =>
    let rest := m.repost.erase w
    if m.upbuf = 0 || (d.fn (mbxFn ch)).fenced || !d.link.up then
      d.setMbx ch { m with repost := rest, upRefused := satInc (2 ^ 32 - 1) m.upRefused }
    else if 16 ≤ m.up.length then d
    else
      let u := { w.2 with slot := m.freeSlot, tag := m.upTag, since := d.sys.uptime, counted := false,
                          body := w.2.body.take 224 }
      let d := d.dma1 (mbxFn ch) (m.upbuf + 256 * u.slot) false false false (d.upBytes u)
      (d.setMbx ch { m with repost := rest, up := m.up ++ [u], upTag := (m.upTag + 1) % 65536 }).mbxMsg ch

/-- UPSTREAM_POST: the oldest message that waits for its first posting (R96). -/
def execUpstreamPost (ch : Nat) (s : State) : Host.Outcome State Fault Refusal :=
  .next (s.onLive (fun d => if d.sys.ready then d.postUp ch (fun w => !w.2.again) else d))

/-- MBX_UP of a channel: pointer, length and tag of the oldest notice (R88). -/
def Mbx.upWord (m : Mbx) : Nat :=
  match m.up with
  | [] => 0
  | u :: _ => (m.upbuf + 256 * u.slot) / 64 + (32 + u.body.length) * 2 ^ 32 + u.tag * 2 ^ 48

/-- MBX_UPACK: a matching tag frees the slot and moves on; BUSY has the message posted once more after 100 ms; a tag
that does not match is ignored and counted (R97, R161). -/
def Dev.upAck (d : Dev) (p : Path) (ch tag code : Nat) : Dev :=
  let m := d.mbx ch
  let bad := d.updPath (pathNo p) (fun r => { r with eMbx := satInc 255 r.eMbx })
  match m.up with
  | [] => bad
  | u :: t =>
    if u.tag ≠ tag || isSide p then bad
    else
      let m := { m with up := t }
      if code = 0 then d.setMbx ch m
      else if code = BUSY && !u.again then
        d.setMbx ch { m with repost := m.repost ++ [(d.sys.uptime + 100000, { u with again := true })] }
      else d.setMbx ch { m with upOther := satInc (2 ^ 32 - 1) m.upOther }

/-- MBX_UPACK (R97). -/
def execMbxUpack (p : Path) (ch tag code : Nat) (s : State) : Host.Outcome State Fault Refusal :=
  .next (s.onLive (fun d => if d.onPath p && pathOwns p ch then d.upAck p ch (tag % 65536) (code % 65536) else d))

/-- UP_TMO: the oldest upstream notice has been pending longer than the channel timeout (R97). -/
def Mbx.upTmoFlag (m : Mbx) (now : Nat) : Bool :=
  match m.up with
  | [] => false
  | u :: _ => decide (u.since + m.tmoMs * 1000 < now)

/-- UPSTREAM_TIMEOUT: Ramcen counts the message as TIMEOUT, once (R97). -/
def execUpstreamTimeout (ch : Nat) (s : State) : Host.Outcome State Fault Refusal :=
  .next (s.onLive (fun d =>
    let m := d.mbx ch
    match m.up with
    | [] => d
    | u :: t =>
      if m.upTmoFlag d.sys.uptime && !u.counted then
        d.setMbx ch { m with up := { u with counted := true } :: t, upTmo := satInc (2 ^ 32 - 1) m.upTmo }
      else d))

/-- UPSTREAM_REPOST: a message answered BUSY is posted again once its 100 ms have passed (R161). -/
def execUpstreamRepost (ch : Nat) (s : State) : Host.Outcome State Fault Refusal :=
  .next (s.onLive (fun d =>
    if d.sys.ready then d.postUp ch (fun w => w.2.again && decide (w.1 ≤ d.sys.uptime)) else d))

/-- MBX_STAT of a port as read (R88). -/
def Dev.mbxStat (d : Dev) (side : Bool) (ch : Nat) : Nat :=
  let m := d.mbx ch
  let p := m.port side
  b2n p.tmo + 2 * b2n (m.upTmoFlag d.sys.uptime) + 4 * b2n p.ovf + 16 * b2n (!d.sys.ready) + 32 * m.dnUsed
    + 1024 * m.up.length + 2 ^ 16 * p.tmoCode

/-- A function-level reset of the owner (R101): its notices and acknowledgements go, upstream notices are removed and
counted, to be posted again once the channel is configured; the configuration returns to its reset values; the sideband
port keeps its own. -/
def Mbx.ownerReset (m : Mbx) : Mbx :=
  { m with fifo := m.fifo.filter (·.side), p0 := Port.reset, up := [],
           upDisc := satAdd (2 ^ 32 - 1) m.upDisc m.up.length,
           again := m.again ++ m.up,
           cpl := none, vec := 0, tmoMs := 10, upbuf := 0 }

end Sys2Proof.Machine
end

