-- ==== Sys2Proof/Machine/Translation.lean ====
section
/-! DEFINITION. Address translation, its cache, faults, stalls and invalidations (R50–R58). -/

namespace Sys2Proof.Machine

/-- What a translation finds. -/
inductive Walked where
  | pass
  | hit (e : Nat) (level : Nat)
  | fault (code level : Nat) (walk : Bool)
deriving DecidableEq, Repr

/-- The checks on one table entry at a level (R51): the fault code, if any. DESIGN CHOICE (log entry 64): bit 4, which
has a meaning at level 2 only, is ignored at the others. -/
def entryFault (e level : Nat) (write final : Bool) : Option Nat :=
  if !bit e 0 then some 1
  else if bits e 11 6 ≠ 0 ∨ bits e 55 52 ≠ 0 then some 3
  else if level ≠ 1 ∧ !bit e 1 then some 3
  else if level = 1 ∧ !bit e 1 ∧ bits e 20 12 ≠ 0 then some 3
  else if level = 2 ∧ bit e 4 ∧ bits e 15 12 ≠ 0 then some 3
  else if final && ((write && !bit e 3) || (!write && !bit e 2)) then some 2
  else none

/-- The walk from a level on over the entries read (R51); a missing entry is a read that failed (WALK_ERROR). -/
def walkFrom (write : Bool) : Nat → List Nat → Walked
  | level, [] => .fault 5 level true
  | level, e :: t =>
    let final : Bool := level = 2 || (level = 1 && !bit e 1)
    match entryFault e level write final with
    | some c => .fault c level true
    | none => if final then .hit e level else walkFrom write (level + 1) t

/-- The walk cache's entry for a level of an address (R52). -/
def Trn.walkEntry (t : Trn) (dom level iova : Nat) : Option Nat :=
  (t.walk.find? (fun w => w.1 = dom && w.2.1 = level * 2 ^ 32 + iova / 2 ^ (if level = 0 then 30 else 21))).map (·.2.2)

/-- Level at which the walk of an address begins, and the bus address of the table it reads there: behind the entries
that the walk cache holds, else at the root (R51, R52). -/
def Dev.walkStart (d : Dev) (dom iova : Nat) : Nat × Nat :=
  match d.trn.walkEntry dom 1 iova, d.trn.walkEntry dom 0 iova with
  | some e, _ => (2, bits e 51 12 * 4096)
  | none, some e => (1, bits e 51 12 * 4096)
  | none, none => (0, (if dom = 2 then (d.fn 1).iroot else (d.fn dom).root) * 4096)

/-- Index of an address in the table of a level (R51). -/
def walkIdx (iova level : Nat) : Nat :=
  match level with
  | 0 => bits iova 37 30
  | 1 => bits iova 29 21
  | _ => bits iova 20 12

/-- Bus addresses that a walk reads from a level and table on, over the entries it finds (R51); a read that failed is made
too. -/
def walkAddrs (iova : Nat) : Nat → Nat → List Nat → List Nat
  | level, table, es =>
    let a := table + walkIdx iova level * 8
    match es with
    | [] => [a]
    | e :: t => if level = 2 || (entryFault e level false false).isSome || (level = 1 && !bit e 1) then [a]
                else a :: walkAddrs iova (level + 1) (bits e 51 12 * 4096) t

/-- Translate (R50–R52): what the cache knows, else the walk over the entries that its reads bring. -/
def Dev.translate (d : Dev) (dom iova : Nat) (write : Bool) (entries : List Nat) : Walked :=
  match d.look dom iova write with
  | .pass => .pass
  | .hit e l => .hit e l
  | .fault c l => .fault c l false
  | .miss => walkFrom write (d.walkStart dom iova).1 entries

/-- The reads of a walk leave over the link; none where the cache answers. -/
def Dev.walkReads (d : Dev) (dom iova : Nat) (write : Bool) (entries : List Nat) : Dev :=
  match d.look dom iova write with
  | .miss =>
    let w := d.walkStart dom iova
    (walkAddrs iova w.1 w.2 entries).foldl (fun d a => d.emit (.walk dom a)) d
  | _ => d

/-- Keep a final translation in the cache of 512 (R52), and the level-0 and level-1 entries of its walk in the walk
cache of 64. DESIGN CHOICE (log entry 64): a full cache loses the entry filled first. -/
def Dev.fillTlb (d : Dev) (dom iova : Nat) (w : Walked) (entries : List Nat) : Dev :=
  match w with
  | .hit e level =>
    if (d.trn.find dom iova).isSome then d else
    let sz := finalSize e level
    let c : TlbE := { dom := dom, base := iova / sz * sz, size := sz, entry := e, level := level }
    let s := (d.walkStart dom iova).1
    let upper := (entries.take (level - s)).mapIdx (fun k v => (s + k, v))
    let ws := upper.map (fun p => (dom, p.1 * 2 ^ 32 + iova / 2 ^ (if p.1 = 0 then 30 else 21), p.2))
    { d with trn := { d.trn with tlb := (c :: d.trn.tlb).take 512, walk := (ws ++ d.trn.walk).take 64 } }
  | _ => d

/-- The stream exists: a ring that is RUNNING or DRAINING, a tag in use, a channel with a TAKEN notice, the
processor. -/
def Dev.streamLive (d : Dev) (st : Nat) : Bool :=
  if st < 0x1000 then (d.ring st).st = .running || (d.ring st).st = .draining
  else if st < 0x1200 then (d.tag (st - 0x1000)).st ≠ .free
  else if st < 0x1240 then (d.mbx (st - 0x1200)).takenHead.isSome
  else st = 0x1300

/-- Number of stalled streams of a function (TRN_FSTAT.STALLED). -/
def Dev.stallCount (d : Dev) (fn : Nat) : Nat := (d.trn.stalls.filter (·.fn = fn)).length

/-- The taken notice of a channel could not be fetched: BAD_POINTER at once (R53, R63, R92). -/
def Dev.noticeFail (d : Dev) (ch : Nat) : Dev :=
  let d := d.dropStream (0x1200 + ch)
  match (d.mbx ch).takenHead with
  | some n => d.ackNotice ch n BAD_POINTER
  | none => d

/-- A translation fault of a stream (R53): one record; the stream stalls and waits, but for a notice fetch, which ends
with BAD_POINTER. -/
def Dev.stall (d : Dev) (st iova len code level : Nat) (write walk : Bool) : Dev :=
  if 0x1200 ≤ st ∧ st < 0x1240 then
    (d.fltRecord (d.streamFn st) 1 code st (d.streamDom st) (trnFlags false write code level walk) iova len).noticeFail (st - 0x1200)
  else d.stallOn st iova len code level write walk

/-- A read leaves, in requests of at most 256 bytes and at most the Max Read Request Size (R42, R59). -/
def Dev.readOut (d : Dev) (st iova len : Nat) : Dev :=
  let unit := if (d.fn (d.streamFn st)).mrrs = 0 then 128 else 256
  (cutAt unit (len / unit + 2) iova (List.replicate (max 1 len) 0)).foldl (fun (d : Dev) p =>
    d.emit (.read (d.streamFn st) p.1 ((d.look (d.streamDom st) p.1 false).bus p.1) p.2.length)) d

/-- A read leaves and is under way (R62). -/
def Dev.issue (d : Dev) (st iova len pos : Nat) : Dev :=
  let x : Rd := { stream := st, iova := iova, len := len, pos := pos, since := d.sys.uptime, no := d.trn.readNo, taken := false, got := [] }
  let d := d.readOut st iova len
  { d with trn := { d.trn with reads := d.trn.reads ++ [x], readNo := d.trn.readNo + 1 } }

/-- A read is issued unless the cache knows that it faults; then its stream stalls (R53). -/
def Dev.request (d : Dev) (st iova len pos : Nat) : Dev :=
  match d.rangeFault (d.streamDom st) iova len false with
  | some f => d.stall st f.1 len f.2.1 f.2.2 false false
  | none => d.issue st iova len pos

/-- A read whose end the same command brings leaves, unless the cache knows that it faults; then its stream stalls. -/
def Dev.sendRead (d : Dev) (st iova len : Nat) : Dev × Bool :=
  match d.rangeFault (d.streamDom st) iova len false with
  | some f => (d.stall st f.1 len f.2.1 f.2.2 false false, false)
  | none => (d.readOut st iova len, true)

/-- Requests that a transfer takes: none crosses a 256-byte boundary (R59). -/
def Rd.requests (x : Rd) : Nat := (x.iova % 256 + max 1 x.len + 255) / 256

/-- A stream of the ISOCHRONOUS class (R59, R69). -/
def Dev.isoStream (d : Dev) (st : Nat) : Bool := decide (st < 0x1000) && (d.ring st).iso

/-- A read of the stream may leave: at most 384 requests are outstanding, of which 192 are held for the ISOCHRONOUS class
(R42). -/
def Dev.readRoom (d : Dev) (st : Nat) : Bool :=
  let l := d.trn.reads.filter (fun x => !x.taken)
  let n := fun (l : List Rd) => (l.map Rd.requests).sum
  decide (n l < 384) && (d.isoStream st || decide (n (l.filter (fun x => !d.isoStream x.stream)) < 192))

/-- NOTICE_TAKE: Ramcen takes the oldest queued notice of a channel (R92): NOT_PERMITTED when the bound CPL ring is not
RUNNING, BAD_POINTER behind a fence; a sideband message is copied from the window, a host message is read through stream
0x1200 + n and stays TAKEN until the read ends (READ_COMPLETION, COMPLETION_TIMEOUT, TRANSLATION_FAULT). -/
def execNoticeTake (ch : Nat) (s : State) : Host.Outcome State Fault Refusal :=
  .next (s.onLive (fun d =>
    let m := d.mbx ch
    if !d.sys.ready || m.takenHead.isSome then d else
    match m.fifo with
    | [] => d
    | n :: _ =>
      if n.side then d.noticeData ch n (winBytes s.win (n.ptr * 64) n.len)
      else
        let bound : Bool := match m.cpl with
          | some k => (d.ring k).st ≠ .running && !d.sys.recovery
          | none => false
        if bound then d.ackNotice ch n NOT_PERMITTED
        else if (d.fn (mbxFn ch)).fenced then d.ackNotice ch n BAD_POINTER
        else if !d.readRoom (0x1200 + ch) then d
        else (d.setMbx ch { m with fifo := { n with st := .taken } :: m.fifo.tail }).request (0x1200 + ch) (n.ptr * 64) n.len 0))

/-- A walk's read that failed leaves its AER entry (R63): which of Poisoned TLP, Completion Timeout, Completer Abort and
Unsupported Request it was is free (log entry 13). -/
def Dev.walkAer (d : Dev) (fn code : Nat) : Dev :=
  if code ≠ 5 then d
  else
    let k := d.drawn Config.freeNat
    k.2.aerSet fn (([12, 14, 15, 20] : List Nat)[k.1 % 4]?.getD 14)

/-- An access of a stream is translated with the table entries that its walk reads: where they translate, the result is
cached; else the stream stalls (R51–R53). -/
def Dev.walked (d : Dev) (st iova len : Nat) (write : Bool) (entries : List Nat) : Dev :=
  let dom := d.streamDom st
  let t := d.translate dom iova write entries
  let d' := d.walkReads dom iova write entries
  match t with
  | .fault c l w => (d'.walkAer (d.streamFn st) c).stall st iova len c l write w
  | w => d'.fillTlb dom iova w entries

/-- TRANSLATION_FAULT: a stream's access with the table entries its walk reads; where they translate, the result is
cached and nothing faults (R51–R53). An access to a page barred for its ring is not made (R56). -/
def execTranslationFault (st iova : Nat) (write : Bool) (len : Nat) (entries : List Nat) (s : State) :
    Host.Outcome State Fault Refusal :=
  .next (s.onLive (fun d =>
    if !d.link.up || !d.streamLive st || d.stalled st || d.streamFenced st
      || (decide (st < 0x1000) && (d.ring st).barredAt iova len) then d
    else d.walked st iova len write entries))

/-- Forget a stall. -/
def Dev.unstall (d : Dev) (st : Nat) : Dev :=
  { d with trn := { d.trn with stalls := d.trn.stalls.filter (fun e => e.stream ≠ st) } }

/-- The STAGE commands whose data is still to be copied, in acceptance order. -/
def Dev.stages (d : Dev) : List Nat :=
  d.tagsInOrder (fun t => t.st = .active && t.ph = .ending && t.opcode = 0x0804 && t.waits ≠ 0)

/-- The STAGE whose data is being read, the oldest that has not been copied. -/
def Dev.copying (d : Dev) : Option Nat := d.stages.head?

/-- Read the data of the oldest STAGE that has not been copied, in pieces of 4,096 bytes, while none is under way (R155);
its tag's `waits` is the number of bytes still to be copied. -/
def Dev.stageGo (d : Dev) : Dev :=
  match d.copying with
  | none => d
  | some n =>
    if !(d.trn.reads.all (fun x => x.stream ≠ 0x1300)) || d.stalled 0x1300 then d
    else match (d.tag n).cmd with
      | some (.stage _ _ len src) => d.request 0x1300 (src + len - (d.tag n).waits) (min 4096 (d.tag n).waits) 0
      | _ => d

/-- An operation of the control processor on host memory fails (R56): the STAGE under way ends with the code, behind a
fence every one (R58), and an event, whose code the manual does not state (free), and a Mordant record are raised. -/
def Dev.internalFail (d : Dev) (code : Nat) : Dev :=
  let d := d.dropStream 0x1300
  let d := if (d.fn 1).ifenced then d.forEach d.stages (fun n d => d.fail n code)
    else match d.copying with
      | some t => (d.fail t code).stageGo
      | none => d
  let e := d.drawn Config.freeNat
  e.2.alarm (e.1 % 65536) 0x1300 code

/-- What an ABORT or a stall timeout does to the stream (R56): pages of rings the device reads are barred, other rings
enter ERROR, a command completes with the code, an internal operation fails. -/
def Dev.endStall (d : Dev) (e : Stall) (err code : Nat) : Dev :=
  let st := e.stream
  let d := d.unstall st
  if st < 0x1000 then
    let r := d.ring st
    if r.st ≠ .stalled then d
    else if r.type = 1 ∨ r.type = 2 ∨ r.type = 3 ∨ r.type = 5 then
      d.setRing st { r with st := .running, barred := (e.iova / 4096) :: r.barred }
    else d.ringError st err
  else if st < 0x1200 then
    let n := st - 0x1000
    if (d.tag n).st = .active then d.fail n code
    else d.updTag n (fun t => if t.st = .done then { t with st := .held, heldRec := true } else t)
  else d.internalFail code

/-- The stall of a stream that this function may resume or abort (R55). -/
def Dev.stallOf (d : Dev) (fn st : Nat) : Option Stall :=
  d.trn.stalls.find? (fun e => e.stream = st && e.fn = fn)

/-- A TRN_RESUME write that is ignored and counted (R55, R405). -/
def Dev.regIgnored (d : Dev) (p : Nat) : Dev := d.updPath p (fun r => { r with eReg := satInc 255 r.eReg })

/-- A stream whose stall has ended goes on (R55): a ring is RUNNING and issues its reads anew, a command's or the
processor's read is issued again. -/
def Dev.goOn (d : Dev) (e : Stall) : Dev :=
  if e.stream < 0x1000 then
    d.updRing e.stream (fun r => if r.st = .stalled then { r with st := .running } else r)
  else if e.write then (if e.stream < 0x1200 then d.outFlush (e.stream - 0x1000) else d)
  else if e.stream < 0x1200 then
    (match (d.tag (e.stream - 0x1000)).hdr with
     | some h => d.request e.stream h.payload h.plen 0
     | none => d)
  else d.stageGo

/-- TRN_RESUME with RESUME (R55): the translation is repeated with the entries its walk now reads. -/
def Dev.resume (d : Dev) (fn st : Nat) (entries : List Nat) : Dev :=
  match d.stallOf fn st with
  | none => d.regIgnored fn
  | some e =>
    let d := d.unstall st
    let t := d.translate e.dom e.iova e.write entries
    let d' := d.walkReads e.dom e.iova e.write entries
    match t with
    | .fault c l w => (d'.walkAer (d.streamFn st) c).stall st e.iova e.len c l e.write w
    | w => (d'.fillTlb e.dom e.iova w entries).goOn e

/-- The same by a register write, which carries no table entries: what the cache knows decides, and where it does not the
stream goes on, to stall again by TRANSLATION_FAULT if its walk faults (R55; log entry 37). -/
def Dev.resumeReg (d : Dev) (fn st : Nat) : Dev :=
  match d.stallOf fn st with
  | none => d.regIgnored fn
  | some e =>
    match d.look e.dom e.iova e.write with
    | .miss => (d.unstall st).goOn e
    | _ => d.resume fn st []

/-- RESUME (R55). -/
def execResume (fn st : Nat) (entries : List Nat) (s : State) : Host.Outcome State Fault Refusal :=
  .next (s.onLive (fun d => if d.link.up && fn < 2 then d.resume fn st entries else d))

/-- TRN_RESUME with ABORT (R55, R56). -/
def Dev.abort (d : Dev) (fn st : Nat) : Dev :=
  match d.stallOf fn st with
  | none => d.regIgnored fn
  | some e => d.endStall e 1 BAD_POINTER

/-- ABORT (R55, R56). -/
def execAbort (fn st : Nat) (s : State) : Host.Outcome State Fault Refusal :=
  .next (s.onLive (fun d => if d.link.up && fn < 2 then d.abort fn st else d))

/-- STALL_TO in µs, clamped to 1–10,000 ms (R58). -/
def Fn.stallUs (f : Fn) : Nat := (if f.stallTo = 0 then 1 else if 10000 < f.stallTo then 10000 else f.stallTo) * 1000

/-- STALL_TIMEOUT: a stream stalled for STALL_TO is aborted by the device, with a record (R55, R57). DESIGN CHOICE
(log entry 64): the record's STALLED is 0, since the stall has ended. -/
def execStallTimeout (st : Nat) (s : State) : Host.Outcome State Fault Refusal :=
  .next (s.onLive (fun d =>
    match d.trn.stalls.find? (fun e => e.stream = st) with
    | some e =>
      if e.since + (d.fn e.fn).stallUs ≤ d.sys.uptime then
        (d.fltRecord e.fn 6 0 st e.dom (2 * b2n e.write) e.iova e.len).endStall e 2 TIMEOUT
      else d
    | none => d))

/-! ### Invalidation (R52, R58) -/

/-- An invalidation covers a range of a domain. -/
def Inv.covers (i : Inv) (fn dom base size : Nat) : Bool :=
  let a := i.page * 4096
  match i.scope with
  | 0 => dom = fn
  | 1 => dom = fn && decide (base ≤ a ∧ a < base + size)
  | 2 => dom = fn && decide (base < a / 2097152 * 2097152 + 2097152 ∧ a / 2097152 * 2097152 < base + size)
  | _ => dom = 2

/-- Drop what an invalidation covers: cached translations, walk-cache entries of the domain, and the bars of pages of
the function's rings (R52, R56). -/
def Dev.applyInv (d : Dev) (fn : Nat) (i : Inv) : Dev :=
  let dom := if i.scope = 3 then 2 else fn
  { d with
    trn := { d.trn with tlb := d.trn.tlb.filter (fun c => !i.covers fn c.dom c.base c.size),
                        walk := d.trn.walk.filter (fun w => w.1 ≠ dom) }
    rings := d.rings.map (fun p =>
      if p.2.owner = fn then
        (p.1, { p.2 with barred := p.2.barred.filter (fun pg => !i.covers fn fn (pg * 4096) 4096) })
      else p) }

/-- Queue an invalidation; a ninth is discarded and counted; scope 3 from PF0 is ignored (R58). What it covers leaves the
cache at once, so that no later access uses the old translation. -/
def Dev.invalidate (d : Dev) (fn scope seq iova : Nat) : Dev :=
  let f := d.fn fn
  let i : Inv := { scope := scope, seq := seq % 256, page := iova / 4096 % 2 ^ 26, upto := d.trn.readNo }
  if scope = 3 && fn = 0 then d
  else if 8 ≤ f.invQ.length then d.regIgnored fn
  else (d.setFn fn { f with invQ := f.invQ ++ [i] }).applyInv fn i

/-- The write reaches TRN_INV of a function. -/
def Dev.trnWrite (d : Dev) (fn : Nat) : Bool := d.link.up && decide (fn < 2)

/-- INVALIDATE_DOMAIN: TRN_INV with SCOPE 0 (R52). -/
def execInvalidateDomain (fn seq : Nat) (s : State) : Host.Outcome State Fault Refusal :=
  .next (s.onLive (fun d => if d.trnWrite fn then d.invalidate fn 0 seq 0 else d))
/-- INVALIDATE_PAGE: SCOPE 1. -/
def execInvalidatePage (fn seq iova : Nat) (s : State) : Host.Outcome State Fault Refusal :=
  .next (s.onLive (fun d => if d.trnWrite fn then d.invalidate fn 1 seq iova else d))
/-- INVALIDATE_REGION: SCOPE 2. -/
def execInvalidateRegion (fn seq iova : Nat) (s : State) : Host.Outcome State Fault Refusal :=
  .next (s.onLive (fun d => if d.trnWrite fn then d.invalidate fn 2 seq iova else d))
/-- INVALIDATE_INTERNAL: SCOPE 3, from PF1 alone. -/
def execInvalidateInternal (fn seq : Nat) (s : State) : Host.Outcome State Fault Refusal :=
  .next (s.onLive (fun d => if d.trnWrite fn then d.invalidate fn 3 seq 0 else d))

/-- A read under way was issued before the invalidation and is covered by it (R52). -/
def Dev.invWaits (d : Dev) (fn : Nat) (i : Inv) : Bool :=
  d.trn.reads.any (fun x => !x.taken && decide (x.no < i.upto) && i.covers fn (d.streamDom x.stream) x.iova (max 1 x.len))

/-- INVALIDATION_DONE: the oldest pending invalidation of a function is complete, every transfer that it covers having
ended (R52). -/
def execInvalidationDone (fn : Nat) (s : State) : Host.Outcome State Fault Refusal :=
  .next (s.onLive (fun d =>
    match (d.fn fn).invQ with
    | [] => d
    | i :: t => if d.invWaits fn i then d else (d.applyInv fn i).updFn fn (fun f => { f with invQ := t, invDone := i.seq })))

/-- Drop every cached translation of a domain (R52). -/
def Dev.dropDomain (d : Dev) (dom : Nat) : Dev :=
  { d with trn := { d.trn with tlb := d.trn.tlb.filter (fun c => c.dom ≠ dom),
                               walk := d.trn.walk.filter (fun w => w.1 ≠ dom) } }

/-- A write to TRN_ROOT or TRN_IROOT (R45): `part` 0 is the low word, held; 1 the high word, with which the root
changes; 2 the whole register. -/
def Dev.rootWrite (d : Dev) (fn : Nat) (internal : Bool) (part v : Nat) : Dev :=
  let f := d.fn fn
  if internal && fn = 0 then d
  else if internal then
    match part with
    | 0 => d.setFn fn { f with irootLow := some (v % 2 ^ 32) }
    | 1 =>
      let low := f.irootLow.getD (f.iroot * 4096 % 2 ^ 32)
      (d.setFn fn { f with iroot := bits (low + v % 2 ^ 32 * 2 ^ 32) 51 12, irootLow := none }).dropDomain 2
    | _ => (d.setFn fn { f with iroot := bits v 51 12, irootLow := none }).dropDomain 2
  else
    match part with
    | 0 => d.setFn fn { f with rootLow := some (v % 2 ^ 32) }
    | 1 =>
      let low := f.rootLow.getD (f.root * 4096 % 2 ^ 32)
      (d.setFn fn { f with root := bits (low + v % 2 ^ 32 * 2 ^ 32) 51 12, rootLow := none }).dropDomain fn
    | _ => (d.setFn fn { f with root := bits v 51 12, rootLow := none }).dropDomain fn

/-- TRN_ROOT_WRITE (R45, R52). -/
def execTrnRootWrite (fn : Nat) (internal : Bool) (part v : Nat) (s : State) : Host.Outcome State Fault Refusal :=
  .next (s.onLive (fun d => if d.trnWrite fn then d.rootWrite fn internal part v else d))

/-- Lift a fence (R58). -/
def Dev.liftFence (d : Dev) (fn : Nat) (internal : Bool) : Dev :=
  d.updFn fn (fun f => if internal then (if fn = 1 then { f with ifenced := false } else f)
                       else { f with fenced := false })

/-- FENCE_LIFT: a write of 1 to FENCED of TRN_CTRL, or of TRN_ICTRL in PF1 (R58). -/
def execFenceLift (fn : Nat) (internal : Bool) (s : State) : Host.Outcome State Fault Refusal :=
  .next (s.onLive (fun d => if d.trnWrite fn then d.liftFence fn internal else d))

end Sys2Proof.Machine
end

