-- ==== Sys2Proof/Machine/Faults.lean ====
section
/-! DEFINITION. Power-stage faults and the emergency mute (R263–R283): current limit and classification, retry, probe
and latch, die and pair holds, fold-back, the DC detector, the emergency registers and pins, the fault-policy commands. -/

namespace Sys2Proof.Machine

/-! ### Current limit, shutdown, retry (R264–R269) -/

/-- A trip flag of one comparator: half-bridge B?, high side?. -/
def tripOf (b high low idx : Bool) (cyc now : Nat) : Trip :=
  { hiA := !b && high, loA := !b && !high, hiB := b && high, loB := b && !high, low := low, idx := idx, cyc := cyc,
    stamp := now }

/-- Two trips of one carrier period are one tripped cycle. -/
def Trip.merge (a t : Trip) : Trip :=
  { a with hiA := a.hiA || t.hiA, loA := a.loA || t.loA, hiB := a.hiB || t.hiB, loB := a.loB || t.loB,
           low := a.low && t.low, idx := a.idx || t.idx }

/-- A tripped cycle joins a list of the last 16, newest first. -/
def addTrip (l : List Trip) (t : Trip) : List Trip :=
  match l with
  | a :: r => if a.cyc = t.cyc then a.merge t :: r else (t :: l).take 16
  | [] => [t]

/-- Count a trip (R264, R265): a new tripped cycle feeds OCTRIPS and the shutdown counters; during a probe the trips
are kept for its class. -/
def Flt.trip (f : Flt) (t : Trip) (now : Nat) : Flt :=
  let same : Bool := match f.recent with | a :: _ => a.cyc = t.cyc | [] => false
  let next : Bool := match f.recent with | a :: _ => a.cyc + 1 = t.cyc | [] => false
  let f := { f with recent := addTrip f.recent t,
                    probeTrips := if f.probe = 0 then f.probeTrips else addTrip f.probeTrips t }
  if same then f
  else { f with trips := satInc (2 ^ 32 - 1) f.trips,
                cons := if next then satInc 255 f.cons else 1,
                times := now :: f.times.filter (fun a => decide (now < a + 1000 * f.win)) }

/-- The shutdown counters are met (R265). -/
def Flt.met (f : Flt) (now : Nat) : Bool :=
  decide (f.ncons ≤ f.cons) || decide (f.mtrips ≤ (f.times.filter (fun a => decide (now < a + 1000 * f.win))).length)

/-- CYCLE_TRIP: a comparator of half-bridge `b` (false A, true B) of channel `n` trips in carrier period `cyc`, on its high or
low side; kept with it are whether the coarse differential voltage stays below 10 % of PVDD and whether the commanded index
exceeds 0.3 (R235, R264, R266). A bridged pair counts as one channel. -/
def execCycleTrip (n : Nat) (b high : Bool) (_coarse _index : Own) (cyc : Nat) (s : State) : Host.Outcome State Fault Refusal :=
  .next (s.onLive (fun d =>
    if 48 ≤ n ∨ !(d.chan n).st.on then d
    else
      let now := d.sys.uptime
      let low : Bool := decide (d.coarseMv n * 10 < (((d.die (dieOf n)).mv : Nat) : Rat))
      let idx : Bool := decide (3 / 10 < absQ (d.chan n).loop.m)
      d.forEach (d.mates n) (fun m d => d.updFlt m (fun f =>
        let f := f.trip (tripOf b high low idx cyc now) now
        { f with metAt := if f.met now then some now else f.metAt }))))

/-- OC_SHUTDOWN: at the end of a carrier period that meets the counters the channel is shut down, classified by the
last 16 tripped cycles (R265, R266). Met in the update of another fault it adds its event, and its code ranks first
(R281). -/
def execOcShutdown (n : Nat) (s : State) : Host.Outcome State Fault Refusal :=
  .next (s.onLive (fun d =>
    let c := d.chan n
    let met := (c.st.on && c.flt.met d.sys.uptime) || (d.justShut n && c.flt.metAt = some d.sys.uptime)
    if 48 ≤ n ∨ c.flt.probe ≠ 0 ∨ !met then d
    else
      let cls := shortClass c.flt.recent 12
      d.shutdown n (0x10 + cls) 0x0B01 cls))

/-- RETRY_TIMER: the wait of R268 has ended. A hold or an emergency mute lets it wait on; with CYCLE_LIMIT_LATCH the
channel latches (R270); a retry is counted and the probe starts. -/
def execRetryTimer (n : Nat) (s : State) : Host.Outcome State Fault Refusal :=
  .next (s.onLive (fun d =>
    let c := d.chan n
    match c.flt.retryAt with
    | none => d
    | some t =>
      if 48 ≤ n ∨ c.st ≠ .retry ∨ d.sys.uptime < t then d
      else if (d.die (dieOf n)).oc = 1 then d.latch n c.flt.code
      else if d.held n || d.emg.any then d
      else (d.forEach (d.mates n) (fun m d => d.updFlt m (fun f => { f with retries := satInc 65535 f.retries }))).probe n false))

/-- PROBE_DONE: a probe ends (R267): failed by a trip, or by a load below 1.0 Ω (0.5 Ω for a bridged pair) measured in
mΩ over the 2 ms of its second step; else passed. -/
def execProbeDone (n mohm : Nat) (s : State) : Host.Outcome State Fault Refusal :=
  .next (s.onLive (fun d =>
    let c := d.chan n
    let f := c.flt
    if 48 ≤ n ∨ f.probe = 0 then d
    else if !f.probeTrips.isEmpty then
      d.probeEnd n (some (if f.probe = 1 then shortClass f.probeTrips f.probeTrips.length else 0))
    else if f.probe = 1 ∨ d.sys.uptime < c.since + 2000 then d
    else d.probeEnd n (if mohm < (if (d.pr (n / 2)).bridged then 500 else 1000) then some 0 else none)))

/-- RETRIES_RESET_TIMER: after 10 s of clean SWITCHING, RETRIES returns to 0 and the latch event closes (R268, R269). -/
def execRetriesResetTimer (n : Nat) (s : State) : Host.Outcome State Fault Refusal :=
  .next (s.onLive (fun d =>
    let c := d.chan n
    match c.flt.cleanAt with
    | none => d
    | some a =>
      if 48 ≤ n ∨ c.st ≠ .switching ∨ d.sys.uptime < a + 10000000 then d
      else
        let d := if c.flt.latchOpen then d.raiseIn c.dom 0x0B03 n c.flt.code 4 else d
        d.updFlt n (fun f => { f with retries := 0, latchOpen := false })))

/-! ### DC detector (R274) -/

/-- Follow the detector's output over a block. -/
def Dev.dcWatch (d : Dev) (n : Nat) : Dev :=
  let c := d.chan n
  let mv := c.sums.vdc * 1000
  let on : Bool := c.st = .switching && c.flt.probe = 0 && c.diag.ph ≠ .run && decide ((c.flt.vdc : Rat) < absQ mv)
  d.updFlt n (fun f => { f with dcV := roundI mv, dcAt := sinceWhen on f.dcAt d.sys.uptime })

/-- DC_FAULT: |Vdc| has exceeded VDC for TDC: shut down and latched under either policy (R274). -/
def execDcFault (n : Nat) (s : State) : Host.Outcome State Fault Refusal :=
  .next (s.onLive (fun d =>
    let f := (d.chan n).flt
    match f.dcAt with
    | none => d
    | some a =>
      if 48 ≤ n ∨ d.sys.uptime < a + 1000 * f.tdc then d
      else (d.chEvent n 0x0B07 (twos 64 f.dcV) 0).latch n 0x30))

/-! ### Holds of dies and pairs (R271–R273) -/

/-- Channels of a die. -/
def dieChans (k : Nat) : List Nat := (List.range 8).map (fun j => 8 * k + j)

/-- Rank of the highest die or pair hold on a channel (R281): ISO_LINK, PVDD, THERMAL, SENSOR. -/
def Dev.holdRank (d : Dev) (n : Nat) : Nat :=
  let k := d.die (dieOf n)
  if k.iso then 4 else if k.pvdd then 3 else if k.thermal then 2 else if (d.pr (n / 2)).sensor then 1 else 0

/-- A hold of a rank sets its code on the channels it holds unless a higher one holds them (R263, R281); a shutdown of the same
update ranks lower and adds no retry; then the holds act. -/
def Dev.holdCode (d : Dev) (l : List Nat) (code rank : Nat) : Dev :=
  (d.forEach l (fun n d =>
    let d := if d.justShut n && (d.chan n).st = .retry then
        d.forEach (d.mates n) (fun m d => (d.updFlt m (fun f => { f with retryAt := none, shutAt := none })).enter m .hiz)
      else d
    if rank < d.holdRank n then d else d.fcode n code)).holdAll

/-- A die or pair event with its Mordant record. -/
def Dev.holdEvent (d : Dev) (code subject data flags : Nat) : Dev := d.alarmIn d.tb.master code subject data flags 0

/-- A sensor reading is plausible, in 0.1 °C (R17). -/
def plausible (t : Int) : Bool := decide (-550 ≤ t ∧ t ≤ 2000)

/-- THERMAL_SHUTDOWN: pair sensor `p` reads above 160 °C: its die goes to high impedance (R272). -/
def execThermalShutdown (p : Nat) (t : Int) (s : State) : Host.Outcome State Fault Refusal :=
  .next (s.onLive (fun d =>
    let k := p / 4
    if 24 ≤ p ∨ !plausible t ∨ t ≤ 1600 ∨ (d.pr p).tripped then d
    else
      let d := d.updPr p (fun x => { x with temp := t, tripped := true })
      let d := (d.updDie k (fun x => { x with thermal := true })).holdEvent 0x0B05 p (twos 64 t) 1
      d.holdCode (dieChans k) 0x40 2))

/-- THERMAL_RECOVER: die `k`'s four pair sensors all read below 130 °C: the hold ends (R272). -/
def execThermalRecover (k : Nat) (t0 t1 t2 t3 : Int) (s : State) : Host.Outcome State Fault Refusal :=
  .next (s.onLive (fun d =>
    let ts := [t0, t1, t2, t3]
    if 6 ≤ k ∨ !(d.die k).thermal ∨ ts.any (fun t => !plausible t || decide (1300 ≤ t)) then d
    else
      let d := d.updDie k (fun x => { x with thermal := false })
      let d := d.forEach [0, 1, 2, 3] (fun j d =>
        let p := 4 * k + j
        let t := (ts[j]?).getD 0
        let was := (d.pr p).tripped
        let d := d.updPr p (fun x => { x with temp := t, tripped := false })
        if was then d.holdEvent 0x0B05 p (twos 64 t) 4 else d)
      d.holdAll))

/-- SENSOR_FAULT: pair sensor `p` reads an implausible value, or has been silent for 10 ms (R17, R272). -/
def execSensorFault (p : Nat) (silent : Bool) (t : Int) (s : State) : Host.Outcome State Fault Refusal :=
  .next (s.onLive (fun d =>
    if 24 ≤ p ∨ (!silent && plausible t) ∨ (d.pr p).sensor then d
    else
      let d := (d.updPr p (fun x => { x with sensor := true, silent := silent, okAt := none })).holdEvent 0x0B0B p (b2n silent) 1
      d.holdCode [2 * p, 2 * p + 1] 0x41 1))

/-- SENSOR_RECOVER: a plausible reading below 130 °C; once such readings have lasted 1 s the pair's hold ends (R272). -/
def execSensorRecover (p : Nat) (t : Int) (s : State) : Host.Outcome State Fault Refusal :=
  .next (s.onLive (fun d =>
    let x := d.pr p
    if 24 ≤ p ∨ !x.sensor then d
    else if !plausible t ∨ 1300 ≤ t then d.setPr p { x with okAt := none }
    else match x.okAt with
      | none => d.setPr p { x with okAt := some d.sys.uptime, temp := t }
      | some a =>
        if d.sys.uptime < a + 1000000 then d
        else ((d.setPr p { x with sensor := false, okAt := none, temp := t }).holdEvent 0x0B0B p (b2n x.silent) 4).holdAll))

/-- DATA of PVDD_FAULT: under or over, PVDD in 10 mV. -/
def pvddData (high : Bool) (mv : Nat) : Nat := b2n high + mv / 10 % 65536 * 65536

/-- PVDD_FAULT: the die's PVDD has left 10–54 V (R273). -/
def execPvddFault (k mv : Nat) (s : State) : Host.Outcome State Fault Refusal :=
  .next (s.onLive (fun d =>
    if 6 ≤ k ∨ (10000 < mv ∧ mv < 54000) ∨ (d.die k).pvdd then d
    else
      let high : Bool := decide (54000 ≤ mv)
      let d := (d.updDie k (fun x => { x with pvdd := true, overV := high, mv := mv })).chainsInvalid k
      (d.holdEvent 0x0B06 k (pvddData high mv) 1).holdCode (dieChans k) (0x50 + b2n high) 3))

/-- PVDD_RECOVER: PVDD is above 10.5 V and below 53.5 V again (R273). -/
def execPvddRecover (k mv : Nat) (s : State) : Host.Outcome State Fault Refusal :=
  .next (s.onLive (fun d =>
    let x := d.die k
    if 6 ≤ k ∨ !x.pvdd ∨ mv ≤ 10500 ∨ 53500 ≤ mv then d
    else (((d.setDie k { x with pvdd := false, mv := mv }).chainsRestart k).holdEvent 0x0B06 k (pvddData x.overV mv) 4).holdAll))

/-- ISO_LINK: no valid downstream isolator frame for 2.0 µs; `lost` frames (R273). -/
def execIsoLink (k lost : Nat) (s : State) : Host.Outcome State Fault Refusal :=
  .next (s.onLive (fun d =>
    if 6 ≤ k ∨ (d.die k).iso then d
    else
      let d := (d.updDie k (fun x => { x with iso := true })).holdEvent 0x0B09 k lost 1
      let d := d.forEach (dieChans k) (fun n d => if (d.chan n).st.on then d.outageBegin n 0x52 else d)
      d.holdCode (dieChans k) 0x52 4))

/-- ISO_LINK_RESTORE: 100 µs of valid frames have passed (R273). -/
def execIsoLinkRestore (k : Nat) (s : State) : Host.Outcome State Fault Refusal :=
  .next (s.onLive (fun d =>
    if 6 ≤ k ∨ !(d.die k).iso then d
    else ((d.updDie k (fun x => { x with iso := false })).holdEvent 0x0B09 k 0 4).holdAll))

/-! ### Fold-back (R271) -/

/-- Readings of the pair sensors in 0.1 °C, averaged over 1 ms, reach the fold-back (R17, R271); an implausible one and that
of a pair whose sensor has failed do not. -/
def Dev.readTemps (d : Dev) (l : List (Nat × Int)) : Dev :=
  l.foldl (fun (d : Dev) (e : Nat × Int) =>
    if 24 ≤ e.1 || !plausible e.2 || (d.pr e.1).sensor then d else d.updPr e.1 (fun x => { x with temp := e.2 })) d

/-- Fold-back gain that a temperature calls for, −0.5 dB per kelvin above TFOLD. -/
def foldTarget (t : Int) (tfold : Nat) : Rat :=
  if t ≤ (tfold : Int) then 1 else dbGain ((((tfold : Int) - t : Int) : Rat) * 128 / 10)

/-- A channel's fold-back for its coming block, and the pair's THERMAL_FOLD event (R271). -/
def Dev.fold (d : Dev) (n : Nat) : Dev :=
  let p := d.pr (n / 2)
  let k := d.die (dieOf n)
  let goal := if k.th = 0 then foldTarget p.temp k.tfold else 1
  let g := (d.chan n).prot.gf
  let g' := if g < goal then slewGain g goal 0 (256 / 1500) else goal
  let d := d.updProt n (fun x => { x with gfWas := g, gf := g' })
  let both : Bool := (d.chan (n / 2 * 2)).prot.gf = 1 && (d.chan (n / 2 * 2 + 1)).prot.gf = 1
  if !p.folding && decide (g' < 1) then
    (d.setPr (n / 2) { p with folding := true }).raiseIn (d.chan n).dom 0x0B04 (n / 2) (twos 64 p.temp) 1
  else if p.folding && both then
    (d.setPr (n / 2) { p with folding := false }).raiseIn (d.chan n).dom 0x0B04 (n / 2) (twos 64 p.temp) 4
  else d

/-! ### Emergency mute (R276–R278) -/

/-- The device drives VERM_OUT_N low (R277). -/
def Dev.vermOut (d : Dev) : Bool :=
  let e := d.emg
  if d.sys.por then false
  else if d.sys.perst then e.verm && e.outAtPerst
  else (e.verm && e.outPin) || (e.mute && e.outReg) || (e.cmdSet && e.outCmd)
    || (e.outLatch && d.chans.any (fun p => p.2.st = ChSt.latched))

/-- A source's settings change without its assertion: the ramp under way and the holds follow (R276). -/
def Dev.emgAdjust (d : Dev) (e : Emg) : Dev :=
  let len := if e.any then e.shortest else d.emg.rampLen / 100
  let e := if e.any = d.emg.any && (!e.any || e.shortest = d.emg.shortest) then e else e.restart d.sys.uptime len
  (({ d with emg := e } : Dev).holdAll).emgSync

/-- Put a new state of the sources in force: with an event where source `k` asserts or withdraws. -/
def Dev.emgPut (d : Dev) (k : Nat) (was now hard : Bool) (e : Emg) : Dev :=
  if was = now then d.emgAdjust e else ({ d with emg := e } : Dev).emgChange d.emg k now hard

/-- A write of EMG_MUTE (R278). -/
def Dev.emgMute (d : Dev) (v : Nat) : Dev :=
  let e := d.emg
  d.emgPut 1 e.mute (bit v 0) (bit v 1) { e with mute := bit v 0, hard := bit v 1, ramp := bits v 25 16 }

/-- EMG_MUTE_WRITE: a write of the whole register over a path (R278). -/
def execEmgMuteWrite (p : Path) (v : Nat) (s : State) : Host.Outcome State Fault Refusal :=
  .next (s.onLive (fun d => if d.onPath p then d.emgMute v else d))

/-- A write of EMG_CFG, from PF1 or the two-wire window; PF0's is ignored and counted (R278). -/
def Dev.emgCfg (d : Dev) (path v : Nat) : Dev :=
  if path = 0 then d.regIgnored 0
  else d.emgAdjust { d.emg with pinHard := bit v 0, outPin := bit v 1, outReg := bit v 2, outCmd := bit v 3,
                                outLatch := bit v 4, pinLatch := bit v 5, pinRamp := bits v 25 16 }

/-- EMG_CFG_WRITE (R278). -/
def execEmgCfgWrite (p : Path) (v : Nat) (s : State) : Host.Outcome State Fault Refusal :=
  .next (s.onLive (fun d => if d.onPath p then d.emgCfg (pathNo p) v else d))

/-- Clear EMG_STAT.PIN_HELD: the pin source withdraws unless the pin itself asserts (R277). -/
def Dev.pinClear (d : Dev) : Dev :=
  let e := d.emg
  d.emgPut 0 e.pinOn e.verm e.pinHard { e with pinHeld := false }

/-- PIN_HELD_CLEAR: a write of 1 to EMG_STAT.PIN_HELD over a path (R278). -/
def execPinHeldClear (p : Path) (s : State) : Host.Outcome State Fault Refusal :=
  .next (s.onLive (fun d => if d.onPath p && d.emg.pinHeld then d.pinClear else d))

/-- VERM_IN_ASSERT: the pin is low after its filter (R277). With the engines stopped only the level is known. -/
def execVermInAssert (s : State) : Host.Outcome State Fault Refusal :=
  .next (if s.dev.emg.verm || s.dev.fz.frozen then s
    else if !s.dev.live then s.onDev (fun d => { d with emg := { d.emg with verm := true } })
    else s.onDev (fun d =>
      let e := d.emg
      d.emgPut 0 e.pinOn true e.pinHard { e with verm := true, pinCount := satInc 65535 e.pinCount }))

/-- VERM_IN_RELEASE: the pin is high again; with PIN_LATCH the source stays asserted (R277). -/
def execVermInRelease (s : State) : Host.Outcome State Fault Refusal :=
  .next (if !s.dev.emg.verm || s.dev.fz.frozen then s
    else if !s.dev.live then s.onDev (fun d => { d with emg := { d.emg with verm := false } })
    else s.onDev (fun d =>
      let e := d.emg
      let keep := e.pinHeld || e.pinLatch
      d.emgPut 0 true keep e.pinHard { e with verm := false, pinHeld := keep }))

/-! ### Commands (R158, R159, R270, R275, R283) -/

/-- POLICY (R158, R270). -/
def checkPolicy (_d : Dev) (dies oc th : Nat) : Option Nat :=
  firstFail [(badMask 6 dies || out oc 0 1 || out th 0 1, OUT_OF_RANGE)]
/-- The limits of a channel return to their reset values; the counts and the timer restart (R122, R283). -/
def Flt.basic (f : Flt) : Flt :=
  let r := Flt.reset
  { f with ilim := r.ilim, ncons := r.ncons, mtrips := r.mtrips, win := r.win, tretry := r.tretry, rlim := r.rlim,
           vdc := r.vdc, tdc := r.tdc, edgewin := r.edgewin, cons := 0, times := [], dcAt := none }

/-- POLICY: a die at EXPERT returns to BASIC, and its expert values, those of OC_LIMITS, TH_LIMITS and DC_LIMITS, to their
reset values (R122; log entry 24). -/
def applyPolicy (d : Dev) (dies oc th : Nat) : Dev :=
  d.forEach (maskList 6 dies) (fun k d =>
    let d := if (d.die k).expert then d.forEach (dieChans k) (fun n d => d.updFlt n Flt.basic) else d
    d.updDie k (fun x => { x with oc := oc, th := th, tfold := if x.expert then Die.reset.tfold else x.tfold, expert := false }))

/-- The fault settings of the dies of some channels are at EXPERT level (R122, R158). -/
def Dev.dieExpert (d : Dev) (mask : Nat) : Dev :=
  d.forEach ((chList mask).map dieOf).eraseDups (fun k d => d.updDie k (fun x => { x with expert := true }))

/-- OC_LIMITS (R158). -/
def checkOcLimits (d : Dev) (mask ilim ncons mtrips win tretry : Nat) : Option Nat :=
  firstFail [(d.namesPartner mask, NOT_PERMITTED), (badMask 48 mask || out ilim 200 1000 || out ncons 1 255 || out mtrips 1 255 || out win 1 1000
    || out tretry 5 500, OUT_OF_RANGE)]
/-- OC_LIMITS: the shutdown counts restart (R265, R283; R122, log entry 24). -/
def applyOcLimits (d : Dev) (mask ilim ncons mtrips win tretry rlim : Nat) : Dev :=
  (d.dieExpert mask).forEach (chList mask) (fun n d => d.forEach (d.mates n) (fun m d => d.updFlt m (fun f =>
    { f with ilim := ilim, ncons := ncons, mtrips := mtrips, win := win, tretry := tretry, rlim := rlim,
             cons := 0, times := [] })))

/-- TH_LIMITS (R158). -/
def checkThLimits (_d : Dev) (dies tfold : Nat) : Option Nat :=
  firstFail [(badMask 6 dies || out tfold 1000 1500, OUT_OF_RANGE)]
/-- TH_LIMITS (R122; log entry 24). -/
def applyThLimits (d : Dev) (dies tfold : Nat) : Dev :=
  d.forEach (maskList 6 dies) (fun k d => d.updDie k (fun x => { x with tfold := tfold, expert := true }))

/-- DC_LIMITS (R158). -/
def checkDcLimits (d : Dev) (mask vdc tdc edgewin : Nat) : Option Nat :=
  firstFail [(d.namesPartner mask, NOT_PERMITTED), (badMask 48 mask || out vdc 200 5000 || out tdc 10 1000 || out edgewin 5 250, OUT_OF_RANGE)]
/-- DC_LIMITS: the timer restarts (R283; R122, log entry 24). -/
def applyDcLimits (d : Dev) (mask vdc tdc edgewin : Nat) : Dev :=
  (d.dieExpert mask).forEach (chList mask) (fun n d => d.forEach (d.mates n) (fun m d => d.updFlt m (fun f =>
    { f with vdc := vdc, tdc := tdc, edgewin := edgewin, dcAt := none })))

/-- A CHMASK alone must be valid and name no partner. -/
def checkChans (d : Dev) (mask : Nat) : Option Nat :=
  firstFail [(d.namesPartner mask, NOT_PERMITTED), (badMask 48 mask, OUT_OF_RANGE)]
/-- The CHMASK of FAULT_COUNTERS, which may name a partner (R225). -/
def checkMask (mask : Nat) : Option Nat := firstFail [(badMask 48 mask, OUT_OF_RANGE)]

/-- FAULT_CLEAR on one channel: a latched one starts with a probe, or waits for a hold to end first (R275). -/
def Dev.faultClear (d : Dev) (n : Nat) : Dev :=
  let d := d.forEach (d.mates n) (fun m d => d.updFlt m (fun f => { f with retries := 0 }))
  if d.held n then
    d.forEach (d.mates n) (fun m d =>
      (d.updFlt m (fun f => { f with byClear := true, retryAt := some d.sys.uptime })).enter m .hiz)
  else d.probe n true

/-- FAULT_CLEAR: RESULT marks the channels that were latched (R158, R275). -/
def applyFaultClear (d : Dev) (tag mask : Nat) : Dev :=
  d.forEach (chList mask) (fun n d =>
    if (d.chan n).st = .latched then
      (d.updTag tag (fun t => { t with result := t.result ||| 2 ^ n })).faultClear n
    else d)

/-- EMG_MUTE_CMD (R158). -/
def checkEmgMuteCmd (_d : Dev) (set hard ramp : Nat) : Option Nat :=
  firstFail [(out set 0 1 || out hard 0 1 || out ramp 1 1000, OUT_OF_RANGE)]
/-- EMG_MUTE_CMD: the command source asserts or withdraws (R159, R276). -/
def applyEmgMuteCmd (d : Dev) (set hard ramp : Nat) : Dev :=
  let e := d.emg
  d.emgPut 2 e.cmdSet (set = 1) (hard = 1) { e with cmdSet := set = 1, cmdHard := hard = 1, cmdRamp := ramp }

/-- FAULT_COUNTERS: OCTRIPS, EDGEERR, ZCTO and RETRIES return to 0; RESULT is the sum of the OCTRIPS (R158). -/
def applyFaultCounters (d : Dev) (tag mask : Nat) : Dev :=
  let sum := ((chList mask).map (fun n => (d.chan n).flt.trips)).sum
  (d.forEach (chList mask) (fun n d => d.updChan n (fun c =>
    { c with zctoCnt := 0, flt := { c.flt with trips := 0, retries := 0 }, loop := { c.loop with edgeErr := 0 } }))).setResult tag (sum % 2 ^ 32)

end Sys2Proof.Machine
end

