-- ==== Sys2Proof/Machine/Stimulus.lean ====
section
/-! DEFINITION. The stimuli of the load diagnostics as they enter the drive (R284, R288, R289, R298, R300). -/

namespace Sys2Proof.Machine

/-- Raised-cosine envelope of a stimulus of `len` µs with 5 ms ramps at both ends, at `x` µs (R289). -/
def toneEnv (x len : Rat) : Rat :=
  let edge := fun (y : Rat) => if y < 0 then (0 : Rat) else if y < 5000 then (1 - cosQ (piQ * y / 5000)) / 2 else 1
  minQ (edge x) (edge (len - x))

/-- A sine of rms value 1 at `f` Hz, `x` µs after its start at a phase in periods. -/
def sineAt (f x phase : Rat) : Rat :=
  let p := f * x / 1000000 + phase
  let p := p - (p + 1 / 2).floor
  sqrtQ 2 * sinQ (2 * piQ * p)

/-- Share of the DC probe's voltage at `x` µs: 5 ms up, 20 ms held, 10 ms to the other polarity, 20 ms held, 5 ms back
(R288). -/
def probeShape (x : Rat) : Rat :=
  if x < 5000 then x / 5000
  else if x < 25000 then 1
  else if x < 35000 then 1 - (x - 25000) / 5000
  else if x < 55000 then -1
  else if x < 60000 then -1 + (x - 55000) / 5000
  else 0

/-- Level of a stimulus of an rms value: its peak is limited to VMAX_eff (R284). -/
def stimLevel (rms lim : Rat) : Rat := minQ rms (lim / sqrtQ 2)

/-- Electrical stimulus of a test at `x` µs of its schedule, in V; the tone's phase is that of `y` µs, which goes on while a
disturbed window waits. Levels are limited to `lim` (R284). -/
def Diag.voltAt (t : Diag) (lim x y : Rat) : Rat :=
  let o : Rat := if t.dc then 60000 else 0
  let l1 : Rat := (20000 + toneWin t.dur t.flo : Nat)
  let l2 : Rat := (20000 + toneWin t.dur t.fhi : Nat)
  if t.dc && decide (x < o) then minQ lim t.probeV * probeShape x
  else if !t.ac then 0
  else
    let x := x - o
    let y := y - o
    let a := stimLevel (dbGain (t.level : Rat)) lim
    if x < l1 then a * toneEnv x l1 * sineAt (t.flo : Rat) y (Config.phase 1)
    else if x < l1 + l2 then a * toneEnv (x - l1) l2 * sineAt (t.fhi : Rat) (y - l1) (Config.phase 2)
    else 0

/-- Share of a stimulus that is left `k` samples into a block, where its test has ended with a processor restart: it ramps
out over 5 ms (R301). -/
def Diag.fade (t : Diag) (now k fs : Nat) : Rat :=
  match t.outAt with
  | none => 1
  | some a =>
    let x : Rat := ((now - a : Nat) : Rat) + (k : Rat) * 1000000 / (fs : Rat)
    if x < 5000 then (1 + cosQ (piQ * x / 5000)) / 2 else 0

/-- The electrical test of a channel is being applied. -/
def Chan.testing (c : Chan) : Bool := c.st = .switching && c.diag.ph = .run && c.diag.kind ≠ 4 && !c.diag.failed

/-- Place of the stimulus at the start of a block in µs, counted by the channel's sample clock (R289). -/
def Diag.place (t : Diag) (now : Nat) : Option Rat :=
  match t.time now with
  | none => none
  | some x => some (t.pos.getD (x : Rat))

/-- Voltages that the tests and the pilot add in a block. -/
def Dev.stimBlock (d : Dev) (n S fs : Nat) : List Rat :=
  let c := d.chan n
  let t := c.diag
  let now := d.sys.uptime
  let lim := d.vmax n
  let test : Nat → Rat := fun k =>
    match t.place now with
    | some p =>
      let y := p + (k : Rat) * 1000000 / (fs : Rat)
      let x := if t.waitAt.isSome then (((t.time now).getD 0 : Nat) : Rat) else y
      if c.testing then t.voltAt lim x y * t.fade now k fs else 0
    | none => 0
  let on : Bool := c.st = .switching && t.ph ≠ .run
  let env := t.pilR.samples S
  let pilot : Nat → Rat := fun k =>
    if !on then 0
    else stimLevel (dbGain (t.pilLevel : Rat)) lim * ((env[k]?).getD 0)
      * sineAt ((t.pilFreq : Rat) / 10) ((t.pilPos + k : Nat) * 1000000 / (fs : Rat)) (Config.phase 0)
  (List.range S).map (fun k => test k + pilot k)

/-- The DC probe's voltage for the coming block: what RE predicts for 20 mA at first; in a hold it moves towards 20 mA, as
read on the MEASURE current tap, by a step that the manual does not state, within min(2.0 V, VMAX_eff) (R288). -/
def Dev.probeStep (d : Dev) (n : Nat) : Dev :=
  let c := d.chan n
  let t := c.diag
  let cap := minQ 2 (d.vmax n)
  match t.time d.sys.uptime with
  | none => d
  | some x =>
    if !c.testing || !t.dc || decide (60000 ≤ x) then d
    else if (5000 ≤ x ∧ x < 25000) ∨ (35000 ≤ x ∧ x < 55000) then
      let r := d.drawn Config.freeRat
      let pair : Bool := (d.pr (n / 2)).bridged
      let cur := (d.tapOut n 2).2 + (if pair then (d.tapOut (n + 1) 2).2 else 0)
      let amp := if x < 25000 then cur else -cur
      let v := if amp < 20 / 1000 then maxQ t.probeV r.1 else minQ t.probeV r.1
      r.2.updChan n (fun c => { c with diag := { c.diag with probeV := clampQ 0 cap v } })
    else if x < 5000 then
      d.updChan n (fun c => { c with diag := { c.diag with probeV := minQ cap ((c.prot.ts.re : Rat) / 1000 * (20 / 1000)) } })
    else d

/-- Inject the electrical stimuli of a block between layers 5 and 6 (R284) and move the pilot on. -/
def Dev.inject (d : Dev) (n S fs : Nat) : Dev :=
  let c := d.chan n
  let t := c.diag
  let pil : Bool := t.pilEn || !t.pilR.still || t.pilR.val ≠ 0
  if t.ph ≠ .run && !pil then d
  else
    let d := d.probeStep n
    let add := d.stimBlock n S fs
    let vfs : Rat := (c.tuning.vfs : Rat) / 1000
    d.updChan n (fun c =>
      let base := if c.loop.drv.isEmpty then List.replicate S (0 : Rat) else c.loop.drv
      let drv := List.zipWith (fun a b => a + b / vfs) base add
      let on : Bool := c.st = .switching && c.diag.ph ≠ .run
      { c with loop := { c.loop with drv := if c.st = .switching then drv else c.loop.drv },
               diag := { c.diag with pilR := c.diag.pilR.step S, pilPos := if on then c.diag.pilPos + S else c.diag.pilPos,
                                     pos := (c.diag.place d.sys.uptime).map (· + (S : Rat) * 1000000 / (fs : Rat)) } })

/-- The block's drive goes to the interpolator of a channel whose transistors are on (R211). -/
def Dev.feedUp (d : Dev) (n S : Nat) : Dev :=
  let c := d.chan n
  if !c.st.on then d
  else
    let x := if c.loop.drv.isEmpty then List.replicate S (0 : Rat) else c.loop.drv
    d.setChan n { c with loop := { c.loop with upQ := c.loop.upQ ++ x } }

/-- The acoustic stimulus of a channel replaces the output of layer 3: after the pre-window, for the stimulus's length
(R284, R300). -/
def Chan.sounding (c : Chan) (now : Nat) : Bool :=
  c.st = .switching && c.diag.ph = .run && c.diag.kind = 4 && !c.diag.failed &&
    (match c.diag.time now with
     | some x => decide (200000 ≤ x ∧ x < 200000 + (if c.diag.stim = 0 then 1000000 else 1365000))
     | none => false)

/-- Sample `k` of an acoustic stimulus at unit level for blocks of `S` samples and `fs` Hz: the exponential sweep from 100 Hz
to 16 kHz of 1.0 s, or the two periods of the sequence, whose samples come at the single rate (R300; log entry 71). -/
def acousticAt (stim S fs k : Nat) : Rat :=
  if stim = 0 then
    let l : Rat := 507517381523383 / 100000000000000
    let t : Rat := (k : Rat) / (fs : Rat)
    let p := 100 / l * (expQ (l * t) - 1) + Config.phase 3
    if 1 ≤ t then 0 else sinQ (2 * piQ * (p - (p + 1 / 2).floor))
  else
    let j := k * 32 / S
    if 2 * 32767 ≤ j then 0 else if Config.mls (j % 32767) then 1 else -1

/-- Its samples, as shares of full scale. -/
def Dev.acousticBlock (d : Dev) (n S : Nat) : List Rat :=
  let t := (d.chan n).diag
  let now := d.sys.uptime
  let fs := (d.dom (d.clk (d.chan n).dom)).fs
  let x := (t.place now).getD 0 - 200000
  let k0 := (roundI (x * (fs : Rat) / 1000000)).toNat
  (List.range S).map (fun k => dbGain (t.level : Rat) * acousticAt t.stim S fs (k0 + k) * t.fade now k fs)

end Sys2Proof.Machine
end

