-- ==== Sys2Proof/Machine/Render.lean ====
section
/-! DEFINITION. The signal path of a block: sources (R80), delay lines and long-delay rings (R165–R169), contexts
(R170–R173), buses (R174), gain layers (R222); object disabling (R123) and the object and context commands (R143–R145). -/

namespace Sys2Proof.Machine

/-! ### Sources (R75, R80) -/

/-- A Q1.31 sample at full scale 1. -/
def q31 (i : Int) : Rat := (i : Rat) / 2147483648

/-- 32 numbers 0–31 as weights of a linear ramp-in. -/
def rampIn32 (l : List Rat) : List Rat := l.mapIdx (fun k v => v * ((k + 1 : Nat) : Rat) / 32)

/-- The decay of an absent source: its last sample, linearly to zero over 16 samples (R80). -/
def decay (hold : Rat) : List Rat :=
  (List.range 32).map (fun k => if k < 16 then hold * ((15 - k : Nat) : Rat) / 16 else 0)

/-- 32 samples of an object's source from sample `sc`, and the object after them (R80): an entry in staging, ramped in
after an absence or at DISCONT, silent before the source's start (R33); else the decay. -/
def Obj.seg (o : Obj) (sc : Nat) : List Rat × Obj :=
  match o.staged.find? (fun e => e.sc = sc) with
  | some e =>
    let x := (List.range 32).map (fun k => q31 ((e.samples[k]?).getD 0))
    let x := if !o.present || bit e.flags 1 then rampIn32 x else x
    let x := x.mapIdx (fun k v => if sc + k < o.startSc then 0 else v)
    (x, { o with present := true, hold := (x.getLast?).getD 0, lastSeq := e.seq, lastEnd := bit e.flags 0, scLast := sc,
                 played := true, staged := o.staged.filter (fun a => decide (sc < a.sc)) })
  | none => (decay o.hold, { o with present := false, hold := 0 })

/-- One sample of a TDM-fed object: its data, ramped in over 32 samples, or the decay over 16 (R313, R319). -/
def Obj.stepTdm (o : Obj) (sc : Nat) : Rat × Obj :=
  match o.tdmIn.find? (fun p => p.1 = sc) with
  | some p =>
    let y := if o.tdmRamp < 32 then p.2 * ((o.tdmRamp + 1 : Nat) : Rat) / 32 else p.2
    (y, { o with tdmRamp := min 32 (o.tdmRamp + 1), tdmGone := 0, hold := y, scLast := sc, played := true })
  | none =>
    let g := o.tdmGone + 1
    (if 16 ≤ g then 0 else o.hold * (1 - (g : Rat) / 16), { o with tdmRamp := 0, tdmGone := min 16 g })

/-- 32 samples of a TDM-fed object; the block is absent when a sample has no data (R319). -/
def Obj.segTdm (o : Obj) (sc : Nat) : List Rat × Obj :=
  let all : Bool := (List.range 32).all (fun k => o.tdmIn.any (fun p => p.1 = sc + k))
  let r := (List.range 32).foldl (fun (a : List Rat × Obj) k =>
    let q := a.2.stepTdm (sc + k)
    (a.1 ++ [if sc + k < o.startSc then 0 else q.1], q.2)) ([], o)
  (r.1, { r.2 with present := all, tdmIn := r.2.tdmIn.filter (fun p => decide (sc + 32 ≤ p.1)) })

/-- 32 samples of the object's source, whichever feeds it. -/
def Obj.piece (o : Obj) (sc : Nat) : List Rat × Obj := if o.src = 2 then o.segTdm sc else o.seg sc

/-- Samples of a block of `S` from `sc`. -/
def Obj.play (o : Obj) (sc S : Nat) : List Rat × Obj :=
  (List.range (S / 32)).foldl (fun (a : List Rat × Obj) (j : Nat) =>
    let r := a.2.piece (sc + 32 * j)
    (a.1 ++ r.1, r.2)) ([], o)

/-- Count and report an absence or a return, entry by entry (R80): absent ones before the first entry, or after END, are not
counted. DESIGN CHOICE (log entry 65): the silence after END raises neither UNDERRUN nor REJOIN. -/
def Dev.presence (d : Dev) (o : Nat) (was now : Obj) (sc : Nat) : Dev :=
  let counted : Bool := was.played && !was.lastEnd
  if !now.present && counted then
    let d := d.updObj o (fun x => { x with underrun := satInc (2 ^ 32 - 1) x.underrun })
    let d := if was.src = 1 then d.updRing was.bind (fun r => { r with cntA := satInc 65535 r.cntA }) else d
    if was.present then d.alarmIn was.dom 0x0301 o was.lastSeq 0 0 else d
  else if now.present && !was.present && counted then
    (if was.ue then (d.updObj o (fun x => { x with ue := false })).closing 0x010D 4 else d).raiseIn was.dom 0x0302 o sc 0
  else d

/-! ### Long-delay rings (R61, R166–R168) -/

/-- The ring regime applies (R166): an LDLY ring is bound and D_b is at least 16 S samples. -/
def Obj.ringRegime (o : Obj) (S : Nat) : Bool := o.ldly.isSome && decide (16 * S ≤ o.bulk)

/-- Choose the regime (R166): none can realise a bulk delay beyond 2,016 samples without a ring. -/
def Obj.choose (o : Obj) (S : Nat) : Obj :=
  { o with ringReg := o.ringRegime S, noReg := o.ldly.isNone && decide (2016 < o.bulk) }

/-- Samples of the object's history from `a` up to `b` were not written (R61): eight ranges, then all of it. -/
def Obj.addGap (o : Obj) (a b : Nat) : Obj :=
  match o.gaps.reverse with
  | (p, q) :: t =>
    if q = a then { o with gaps := ((p, b) :: t).reverse }
    else if 8 ≤ o.gaps.length then { o with gaps := [], allGap := true, allGapTo := b }
    else { o with gaps := o.gaps ++ [(a, b)] }
  | [] => { o with gaps := [(a, b)] }

/-- Positions from the last one accounted for up to `sc`, at which writing goes on, were never written: the domain was
DISABLED (R418) or the binding is fresh (R167); where SC has gone back, all older positions. -/
def Obj.lapse (o : Obj) (sc : Nat) : Obj :=
  if o.written = sc then o
  else if o.written < sc then { o.addGap o.written sc with written := sc }
  else { o with gaps := [], allGap := true, allGapTo := sc, written := sc }

/-- A binding to a fresh ring: no position has been written (R167). -/
def Obj.freshBind (o : Obj) (ldly : Option Nat) : Obj :=
  if ldly.isSome && ldly ≠ o.ldly then { o with ldly := ldly, gaps := [], allGap := false, hist := [], written := 0, ldlyBase := none, ldlyNext := 0 }
  else { o with ldly := ldly }

/-- A sample of the history lies in a gap (R61), or has not been reached. -/
def Obj.inGap (o : Obj) (sc : Nat) : Bool :=
  decide (o.written ≤ sc) || (o.allGap && decide (sc < o.allGapTo)) || o.gaps.any (fun g => decide (g.1 ≤ sc ∧ sc < g.2))

/-- A sample as the 32 bits of Q1.31. -/
def q31Bytes (x : Rat) : List Nat := le 4 (twos 32 (clampInt (-2147483648) 2147483647 (x * 2147483648).floor))

/-- Account for the position of 32 samples at `p` of an object's history: written, or a gap (R61). -/
def Obj.position (o : Obj) (p : Nat) (written : Bool) : Obj :=
  { (if written then o else o.addGap p (p + 32)) with written := p + 32 }

/-- Write one position of 32 samples into the LDLY ring at its index, which follows from its SC (R71, R167); where it cannot
be written it becomes a gap (R56, R61, R168). -/
def Dev.ldlyPut (d : Dev) (o k p : Nat) (x : List Rat) : Dev :=
  let r := d.ring k
  let base := ((d.obj o).ldlyBase.getD ((r.tail + 2 ^ 32 - p / 32 % 2 ^ 32) % 2 ^ 32))
  let a := r.slotAddr (base + p / 32)
  let y := if d.ringOpen k && !r.barredAt a 128 then d.reachAt k [(a, 128)] else (d, false)
  if !y.2 then y.1.updObj o (fun q => q.position p false)
  else
    let d := (y.1.dma r.owner a true true (d.epAt k a) (x.flatMap q31Bytes)).epDone k a
    let tail := (base + p / 32 + 1) % 2 ^ 32
    let head := if r.size < (tail + 2 ^ 32 - r.head) % 2 ^ 32 then (tail + 2 ^ 32 - r.size) % 2 ^ 32 else r.head
    (d.updRing k (fun r => { r with tail := tail, head := head })).updObj o (fun q => { q.position p true with ldlyBase := some base })

/-- Write a block of the object's signal into its LDLY ring, 32 samples an entry (R167). Gaps that the whole ring has been
rewritten over are forgotten. -/
def Dev.writeLdly (d : Dev) (o sc : Nat) (x : List Rat) : Dev :=
  match (d.obj o).ldly with
  | none => d
  | some k =>
    let d := d.updObj o (fun a => a.lapse sc)
    let d := d.forEach (List.range (x.length / 32)) (fun j d => d.ldlyPut o k (sc + 32 * j) ((x.drop (32 * j)).take 32))
    let span := 32 * (d.ring k).size
    let d := d.updObj o (fun a => { a with gaps := a.gaps.filter (fun g => decide (a.written < g.2 + span)),
                                           allGap := a.allGap && decide (a.written < a.allGapTo + span) })
    if d.ringOpen k then d.watermark k else d

/-- A sample of the history read back: none where it is not in staging or lies in a gap. -/
def Obj.histAt (o : Obj) (sc : Nat) : Option Rat :=
  if o.inGap sc then none
  else match o.hist.find? (fun e => decide (e.sc ≤ sc ∧ sc < e.sc + 32)) with
    | some e => some (q31 ((e.samples[sc - e.sc]?).getD 0))
    | none => none

/-- A block read back D_b samples later: all of it, or none. -/
def Obj.histBlock (o : Obj) (sc S : Nat) : Option (List Rat) :=
  if sc < o.bulk then none else (List.range S).mapM (fun k => o.histAt (sc - o.bulk + k))

/-- The delay-line input of a block in the ring regime, after a sample `last`: the history, ramped in after a gap; where it is
not there, or no regime applies, ramped silence (R61, R168). -/
def Obj.ringInput (a : Obj) (sc S : Nat) (last : Rat) : List Rat :=
  match if a.noReg then none else a.histBlock sc S with
  | some x => if a.gapOpen then rampIn32 (x.take 32) ++ x.drop 32 else x
  | none => ((decay last) ++ List.replicate S 0).take S

/-- The delay-line input of a block in the ring regime: the history, ramped in after a gap, or ramped silence with one
LDLY_GAP at the start of a gap (R61, R168). -/
def Dev.fromRing (d : Dev) (o sc S : Nat) : List Rat × Dev :=
  let a := d.obj o
  let y := a.ringInput sc S (a.line.headD 0)
  match if a.noReg then none else a.histBlock sc S with
  | some _ => (y, d.setObj o { a with gapOpen := false, hist := a.hist.filter (fun e => decide (sc - a.bulk + S < e.sc + 32)) })
  | none =>
    let d := d.updObj o (fun a => { a with gapOpen := true })
    (y, if a.gapOpen then d else d.alarmIn a.dom 0x0305 o (sc - a.bulk) 0 0)

/-! ### The delay line and the contexts (R165, R170–R173) -/

/-- Sample `i` counted from the first sample of the block being rendered; `buf` has the newest first, the last sample
of the next block at its head; samples older than `born` are zero for this context (R180). -/
def readAt (buf : List Rat) (S b born : Nat) (i : Int) : Rat :=
  if (b : Int) + i < (born : Int) then 0 else
  let k : Int := 2 * (S : Int) - 1 - i
  if k < 0 then 0 else (buf[k.toNat]?).getD 0

/-- The interpolator (R170): T taps centred on the delayed position; phase 0 is a unit impulse. -/
def interpAt (buf : List Rat) (S b born T : Nat) (j : Nat) (delay : Rat) : Rat :=
  let q := delay.floor
  let ph := ((delay - (q : Rat)) * 64).floor.toNat
  let at_ : Int := (j : Int) - q
  if ph = 0 then readAt buf S b born at_
  else sumQ ((List.range T).map (fun i => Config.interp T ph i * readAt buf S b born (at_ - ((T / 2 : Nat) : Int) + (i : Int))))

/-- The shaping filter over a block: outputs, and the history it leaves (R171). -/
def shapeRun (taps : List Int) (hist x : List Rat) : List Rat × List Rat :=
  let r := x.foldl (fun (a : List Rat × List Rat) v =>
    let h := (v :: a.2).take 64
    (sumQ (List.zipWith (fun t s => q31 t * s) taps h) :: a.1, h.take 63)) ([], hist)
  (r.1.reverse, r.2)

/-- One setting of a context over a block: interpolator and shape; the filter's history is the interpolator's last 63
outputs, whichever setting made them (log entry 60). -/
def Dev.ctxRun (d : Dev) (x : Ctx) (buf : List Rat) (S b bulk T : Nat) (shape : Option Nat) (hist : List Rat) :
    List Rat × List Rat :=
  let y := (x.delays S).mapIdx (fun j dl => interpAt buf S b x.born T j (dl + (bulk : Rat)))
  match shape with
  | none => (y, (y.reverse ++ hist).take 63)
  | some k => shapeRun (d.shape k).taps hist y

/-- A context's contribution to its bus, and the context after the block (R172, R173): crossfaded from the old setting
where one runs beside the new; ramped to silence after an error (R64). -/
def Dev.ctxBlock (d : Dev) (x : Ctx) (buf : List Rat) (S b bulk : Nat) : List Rat × Ctx :=
  let nw := d.ctxRun x buf S b bulk x.taps x.shape x.fir
  let mix := match x.old with
    | none => nw.1
    | some o =>
      let od := d.ctxRun x buf S b bulk o.1 o.2 x.firOld
      List.zipWith (· + ·) (nw.1.mapIdx (fun k v => v * ((k + 1 : Nat) : Rat) / (S : Rat)))
        (od.1.mapIdx (fun k v => v * ((S - 1 - k : Nat) : Rat) / (S : Rat)))
  let y := List.zipWith (· * ·) mix (x.gains S)
  let y := if x.fade then y.mapIdx (fun k v => v * ((S - 1 - k : Nat) : Rat) / (S : Rat)) else y
  (y, { x.after with fir := nw.2, fade := false })

/-- Weight of an object's output over a block: the dip of R169, the ramp of a removal (R123), a bad history word
(R64). -/
def Obj.weight (o : Obj) (S k : Nat) : Rat :=
  let up : Rat := ((k + 1 : Nat) : Rat) / (S : Rat)
  if o.bad ≠ 0 then (if 4096 ≤ o.bad then 1 - up else 0)
  else if o.ending || o.dip = 2 then 1 - up
  else if o.dip = 1 then up else 1

/-- After the block: the dip moves on, and a bulk delay that waited for the ramp-out takes effect (R169). -/
def Obj.afterDip (o : Obj) (S : Nat) : Obj :=
  if o.bad ≠ 0 ∧ o.bad ≤ S then { o with bad := 0, dip := 1 }
  else
  let o := if 4096 ≤ o.bad then { o with bad := o.bad - 4096 } else { o with bad := o.bad - S }
  match o.dip, o.bulkNext with
  | 2, some p => { o.freshBind p.2 with dip := 1, bulk := p.1, bulkNext := none }.choose S
  | 2, none => { o with dip := 1 }.choose S
  | 1, _ => { o with dip := 0 }
  | _, _ => o

/-- The object's contexts all stand parked with no target other than 0 pending, in those that another domain holds
parked as well (R181). -/
def Dev.allParked (d : Dev) (o : Nat) : Bool :=
  (List.range 48).all (fun n =>
    (d.ctx (48 * o + n)).gainT = 0 && ((d.ctx (48 * o + n)).parked || !d.liveCtx o n))

/-- After a change of the bulk delay the local regime limits the delays that it can no longer reach, counted (R166). -/
def Dev.relimit (d : Dev) (o : Nat) : Dev :=
  d.forEach ((List.range 48).map (fun n => 48 * o + n)) (fun c d =>
    let e := d.limitReach c
    if (e.ctx c).delayT = (d.ctx c).delayT then d
    else e.updCtx c (fun x => { x with delay := if (x.delayT : Rat) / 64 < x.delay then (x.delayT : Rat) / 64 else x.delay }))

/-- A bad history word of an object has been overwritten: its outage closes (R341). -/
def Dev.badOver (d : Dev) (o : Nat) (was : Obj) : Dev :=
  if was.bad ≠ 0 && (d.obj o).bad = 0 then d.closing 0x010D 1 else d

/-- A block of an object that has stopped fetching (R181): HEAD passes entries unread, nothing is stored, the history
is zero, its long-delay positions become a gap; what is absent after it is not counted as UNDERRUN. -/
def Dev.skipBlock (d : Dev) (o sc S : Nat) : Dev :=
  let a := d.obj o
  let d := if a.src = 1 then
      let r := d.ring a.bind
      let n := if r.st = .running || r.st = .stalled then min (S / 32) r.occ else 0
      let d := { d with trn := { d.trn with reads := d.trn.reads.filter (fun x => x.stream ≠ a.bind) } }
      (d.setRing a.bind { r with head := (r.head + n) % 2 ^ 32, nextSc := r.nextSc.map (· + 32 * n) }).watermark a.bind
    else d
  let d := d.updObj o (fun x =>
    let x := { x with line := [], tdmIn := [], staged := [], present := false, hold := 0, stopped := true, lastEnd := true }
    let x := if x.ldly.isSome then { (x.lapse sc).addGap sc (sc + S) with written := sc + S } else x
    x.afterDip S)
  let d := d.badOver o a
  if a.bulk = (d.obj o).bulk then d else d.relimit o

/-- Render one object's block into the buses: `acc` holds the sums of the outputs by number. -/
def Dev.objBlock (d : Dev) (o sc S : Nat) (acc : Tab (List Rat)) : Dev × Tab (List Rat) :=
  let was := d.obj o
  if d.allParked o then (d.skipBlock o sc S, acc)
  else
    let r := (List.range (S / 32)).foldl (fun (a : List Rat × Dev) j =>
      let was := a.2.obj o
      let p := was.piece (sc + 32 * j)
      (a.1 ++ p.1, (a.2.setObj o { p.2 with stopped := false }).presence o was p.2 (sc + 32 * j))) (([] : List Rat), d)
    let d := r.2.writeLdly o sc r.1
    let inp : List Rat × Dev := if was.ringReg || was.noReg then d.fromRing o sc S else (r.1, d)
    let d := inp.2
    let a := d.obj o
    let line := (inp.1.reverse ++ a.line).take (2048 + 2 * S)
    let ahead := if a.ringReg || a.noReg then a.ringInput (sc + S) S (line.headD 0) else (a.play (sc + S) S).1
    let buf := ahead.reverse ++ line
    let bulk := if a.ringReg || a.noReg then 0 else a.bulk
    let step := fun (p : Dev × Tab (List Rat)) (c : Nat) =>
      let x := p.1.ctx c
      if x.parked then p
      else
        let y := p.1.ctxBlock x buf S sc bulk
        let w := y.1.mapIdx (fun k v => v * a.weight S k)
        let n := c % 48
        (p.1.setCtx c y.2, Tab.set p.2 n (List.zipWith (· + ·) (Tab.get (List.replicate S 0) p.2 n) w))
    let q := (d.liveOf o).foldl step (d, acc)
    let d := (q.1.updObj o (fun x => { x with line := line }.afterDip S)).badOver o a
    (if a.bulk = (d.obj o).bulk && a.ringReg = (d.obj o).ringReg then d else d.relimit o, q.2)

/-- Objects of domain `r` that have a source. -/
def Dev.objsOf (d : Dev) (r : Nat) : List Nat := d.sourced.filter (fun o => (d.obj o).dom = r)

/-- The buses of a block: every object of the domain, and of its pair (R163, R174). -/
def Dev.buses (d : Dev) (r sc S : Nat) : Dev × Tab (List Rat) :=
  (d.objsOf r).foldl (fun (a : Dev × Tab (List Rat)) o => a.1.objBlock o sc S a.2) (d, [])

/-! ### Channels: bus, layers 2 and 3, drive (R174, R222) -/

/-- A volume of a ramp in 1/256 dB as a gain; OFF is 0. -/
def volGain (v : Rat) : Rat := if v ≤ -32768 then 0 else if v = 0 then 1 else dbGain v

/-- The drive of a channel's block before protection: the bus, held within ±8.0 and counted, times volume, mutes and
the opening of the drive; only a SWITCHING channel plays (R142, R220). -/
def Dev.chanDrive (d : Dev) (n S : Nat) (bus : List Rat) : List Rat × Dev :=
  let c := d.chan n
  let wide := (bus.filter (fun v => decide (8 < v) || decide (v < -8))).length
  let bus := if wide = 0 then bus else bus.map (clampQ (-8) 8)
  let k := if n % 2 = 1 && (d.pr (n / 2)).bridged then n - 1 else n
  let p := d.chan k
  let play : Bool := c.st = .switching
  let x := if p.sounding d.sys.uptime then d.acousticBlock k S
    else if !play || quiet bus then List.replicate S (0 : Rat)
    else
      let g := List.zipWith (· * ·) ((p.volR.samples S).map volGain) (p.muteR.samples S)
      let g := List.zipWith (· * ·) g (List.zipWith (· * ·) (c.aux.samples S) (c.drive.samples S))
      List.zipWith (· * ·) bus g
  let c' := { c with bus := bus, busClip := satAdd 65535 c.busClip wide, volR := c.volR.step S, muteR := c.muteR.step S,
                     aux := c.aux.step S, drive := if play then c.drive.step S else c.drive }
  (x, d.setChan n c')

/-- One channel's block up to the demand of R256; the smallest excursion gain is kept for the report. -/
def Dev.chanBlock (d : Dev) (n S fs : Nat) (bus : List Rat) : Dev × Rat :=
  let r := d.chanDrive n S bus
  let m := (r.2.chan n).sums
  let d := (((r.2.protModels n).fold n).dcWatch n).updSums n Sums.next
  let c := d.chan n
  let partner : Bool := n % 2 = 1 && (d.pr (n / 2)).bridged
  if partner then (d, 1)
  else
    let vfs : Rat := if quiet r.1 then 0 else (c.tuning.vfs : Rat) / 1000
    let s := c.prot.shape S fs vfs (d.xmax n) r.1
    let pilot := bit s.1.const.flags 1
    let d := (d.updProt n (fun _ => { s.1 with winBlk := if pilot then 0 else min 63 (s.1.winBlk + 1) })).updSums n
      (fun w => if pilot then w.window else w)
    (d.demand n (m.mean m.pPos) ((s.2[0]?).getD 0), (s.2[1]?).getD 1)

/-- Channels of a domain. -/
def Dev.chansOf (d : Dev) (r : Nat) : List Nat := (List.range 48).filter (fun n => (d.chan n).dom = r)

/-! ### Disabling objects (R123, R144) -/

/-- The source is gone: reservation, staging and history are returned, settings stay (R123 step 4, R144). -/
def Dev.objOff (d : Dev) (o : Nat) : Dev :=
  let S := d.objS o
  let live := d.liveOf o
  let d := d.updObj o (fun x => { x with
    src := 0, bind := 0, staged := [], present := false, played := false, hold := 0, tdmIn := [], line := [],
    wait := none, waitTag := none, ending := false, stopped := false, lastSc := none })
  let d := d.forEach live (fun c d => d.updCtx c (fun x => { x with
    parked := true, planned := false, carried := false, pend := x.gainT ≠ 0, gain := 0, old := none }))
  d.updObj o (fun x => x.choose S)

/-- The removal of an object's source ends: its resources are returned, and its command completes with the line-time of
the first silent sample (R123 steps 4 and 5). -/
def Dev.objEnd (d : Dev) (o : Nat) : Dev :=
  let a := d.obj o
  let dm := a.dom
  let lt := if d.renders dm then d.ltOfSc dm (d.dom dm).nextBlk else d.ltNow dm
  let d := d.objOff o
  match a.waitTag with
  | some t => if (d.tag t).st = .active then d.endDisable t dm lt else d
  | none => d

/-- The object's audio stops `us` µs from now, at the effective sample (R33, R123 step 2): a silent object skips the wait;
one that does not render is silent. -/
def Dev.objQuiet (d : Dev) (o us : Nat) : Dev :=
  let a := d.obj o
  if a.src = 0 || !d.renders a.dom then d.objEnd o
  else
    let silent : Bool := !a.present && a.hold = 0
    d.setObj o { a with wait := if silent then none else some (d.sys.uptime + us), ending := silent }

/-- OBJ_SOURCE with SRC = 0 starts, `k` samples into the block (R33, R144). -/
def Dev.objStop (d : Dev) (tag o k : Nat) : Dev :=
  let a := d.obj o
  let rings := (if a.src = 1 then [a.bind] else []) ++ a.ldly.toList
  ((d.updTag tag (fun t => { t with ph := .ending, dma := rings })).updObj o (fun a => { a with waitTag := some tag })).objQuiet o (k * 1000000 / (d.dom (d.clk (d.obj o).dom)).fs)

/-! ### Object and context commands (R143–R145) -/

/-- The ring is a RUNNING one of a type, owned by the sender's function. -/
def Dev.ringFor (d : Dev) (fn k type : Nat) : Bool :=
  let r := d.ring k
  k < 4096 && r.st = .running && r.type = type && r.owner = fn

/-- OBJ_SOURCE (R143, R144, R183). -/
def checkObjSource (d : Dev) (sender o src dom bind prio : Nat) : Option Nat :=
  let fn := fnOf sender
  let bad : Bool := match src with
    | 1 => !(d.ringFor fn bind 1 && (d.ring bind).bind = o && (d.ring bind).domain = dom)
    | 2 => out (bind / 32) 0 3 || (d.port (bind / 32)).dom ≠ dom
    | _ => false
  firstFail [(out o 0 255 || out src 0 2 || out dom 0 3 || out prio 0 15 || bad, OUT_OF_RANGE),
    (src ≠ 0 && (d.obj o).src ≠ 0 && (d.obj o).dom ≠ dom, BUSY),
    (src ≠ 0 && d.overCap (.objSource o src dom bind prio), BUSY)]

/-- OBJ_SOURCE with a source, at its effective sample. -/
def applyObjSource (d : Dev) (o src dom bind prio start : Nat) : Dev := d.bindSrc o src dom bind prio start

/-- OBJ_POSITION (R143). -/
def checkObjPosition (_d : Dev) (o : Nat) (gain : Int) : Option Nat :=
  firstFail [(out o 0 255 || outI gain (-30720) 3072, OUT_OF_RANGE)]

/-- Store a position; an EXPERT object only counts it (R179). -/
def Dev.moveObj (d : Dev) (o : Nat) (p : Point) (gain : Int) : Dev :=
  let d := d.updObj o (fun a => { a with x := p.x, y := p.y, z := p.z, gain := gain })
  if (d.obj o).expert then d.updObj o (fun a => { a with basicIgn := satInc (2 ^ 32 - 1) a.basicIgn }) else d.basicObj o

/-- OBJ_POSITION. -/
def applyObjPosition (d : Dev) (o : Nat) (p : Point) (gain : Int) : Dev := d.moveObj o p gain

/-- OBJ_BASIC (R143, R183). -/
def checkObjBasic (d : Dev) (o : Nat) : Option Nat :=
  firstFail [(out o 0 255, OUT_OF_RANGE), (d.overCap (.objBasic o), BUSY)]
/-- OBJ_BASIC: the object returns to BASIC, recomputed from its last position; its counters clear (R179, R186). -/
def applyObjBasic (d : Dev) (o : Nat) : Dev :=
  ((d.updObj o (fun a => { a with expert := false })).clearCounts o).basicObj o

/-- The STALLED long-delay ring that the object has already (R188). -/
def Dev.ringHeld (d : Dev) (fn o k : Nat) : Bool :=
  let r := d.ring k
  decide (k < 4096) && r.st = .stalled && r.type = 2 && r.owner = fn && (d.obj o).ldly = some k

/-- OBJ_BULKDELAY (R143, R166, R167): a RUNNING LDLY ring, or the object's own one while it is STALLED (R188). -/
def checkObjBulkdelay (d : Dev) (sender o delay ldly : Nat) : Option Nat :=
  let a := d.obj o
  let dbl := (d.dom (d.clk a.dom)).dbl
  let fn := fnOf sender
  let r := d.ring ldly
  let S := d.objS o
  let named : Bool := ldly ≠ 65535
  firstFail [(decide (o < 256) && named && decide (ldly < 4096) && r.st ≠ .disabled && r.owner ≠ fn, NOT_PERMITTED),
    (out o 0 255 || out delay 0 (if dbl then 192000 else 96000)
      || (named && !((d.ringFor fn ldly 2 || d.ringHeld fn o ldly) && r.bind = o && r.domain = a.dom)) || (!named && decide (2016 < delay))
      || (named && decide (2 ^ r.log2n < (delay + 31) / 32 + 12 * S / 32)), OUT_OF_RANGE)]

/-- OBJ_BULKDELAY at its boundary: with the dip of R169 while the object plays. -/
def applyObjBulkdelay (d : Dev) (o delay ldly : Nat) : Dev :=
  let a := d.obj o
  let S := d.objS o
  let r := if ldly = 65535 then none else some ldly
  if a.src = 0 ∨ a.stopped then (d.setObj o ({ a.freshBind r with bulk := delay }.choose S)).relimit o
  else d.setObj o { a with bulkNext := some (delay, r), dip := 2 }

/-- The bound LDLY ring of objects has reached DISABLED: the binding ends and the regime is chosen again (R168). -/
def Dev.ldlyGone (d : Dev) (k : Nat) : Dev :=
  d.forEach ((d.objs.filter (fun p => p.2.ldly = some k)).map (·.1)) (fun o d =>
    let a := d.obj o
    d.setObj o (if decide (a.bulk ≤ 2016) && a.src ≠ 0 then { a with bulkNext := some (a.bulk, none), dip := 2 }
                else { a with ldly := none }.choose (d.objS o)))

/-- A tap count is one of R145's. -/
def tapsOk (t : Nat) : Bool := t = 8 || t = 12 || t = 16 || t = 24 || t = 32

/-- A CTX_WRITE entry is out of range (R145); fields whose VALID bit is clear are not looked at. -/
def entryBad (e : CtxEntry) : Bool :=
  decide (12288 ≤ e.ctx) || (bit e.valid 3 && !tapsOk e.taps) || (bit e.valid 2 && decide (1024 ≤ e.shape ∧ e.shape ≠ 65535))
    || out e.ramp 1 255 || decide (15 < e.valid) || decide (2 ^ 24 ≤ e.gain) || decide (2 ^ 17 ≤ e.delay)

/-- CTX_WRITE (R143, R145, R183). -/
def checkCtxWrite (d : Dev) (n : Nat) (es : List CtxEntry) : Option Nat :=
  firstFail [(out n 1 4096 || es.any entryBad, OUT_OF_RANGE), (d.overCap (.ctxWrite n es), BUSY)]
/-- CTX_WRITE. -/
def applyCtxWrite (d : Dev) (es : List CtxEntry) : Dev := d.writeCtxs es

/-- Some unparked context uses shape `k` (R171). -/
def Dev.shapeUsed (d : Dev) (k : Nat) : Bool :=
  d.ctxs.any (fun p => d.liveCtx (p.1 / 48) (p.1 % 48) && !p.2.parked
    && (p.2.shape = some k || (match p.2.old with | some o => o.2 = some k | none => false)))

/-- SHAPE_LOAD (R143, R171). -/
def checkShapeLoad (d : Dev) (first n : Nat) : Option Nat :=
  firstFail [(out n 1 1024 || decide (1024 < first + n), OUT_OF_RANGE),
    ((List.range n).any (fun k => d.shapeUsed (first + k)), BUSY)]
/-- SHAPE_LOAD: the bad mark clears (R64). -/
def applyShapeLoad (d : Dev) (first n : Nat) (taps : List Int) : Dev :=
  d.forEach (List.range n) (fun k d =>
    (if (d.shape (first + k)).bad then d.closing 0x010D 2 else d).setShape (first + k)
      { taps := (taps.drop (64 * k)).take 64, bad := false })

/-- Recompute every BASIC object (R178). -/
def Dev.basicAll (d : Dev) : Dev := d.forEach d.basicObjs (fun o d => d.basicObj o)

/-- GEOMETRY (R143). -/
def checkGeometry (_d : Dev) (first n : Nat) : Option Nat :=
  firstFail [(out n 1 48 || decide (48 < first + n), OUT_OF_RANGE)]
/-- GEOMETRY. -/
def applyGeometry (d : Dev) (first n : Nat) (pts : List Point) : Dev :=
  ({ d with geo := (List.range 48).map (fun k =>
      if first ≤ k ∧ k < first + n then (pts[k - first]?).getD ⟨0, 0, 0⟩ else d.place k) } : Dev).basicAll

/-- PAN_LAW (R143, R175). -/
def checkPanLaw (_d : Dev) (law param : Nat) : Option Nat :=
  firstFail [(out law 0 3 || out param 10 (if law = 2 then 65535 else 10000), OUT_OF_RANGE)]
/-- PAN_LAW. -/
def applyPanLaw (d : Dev) (law param : Nat) : Dev :=
  ({ d with rend := { d.rend with law := law, param := param } } : Dev).basicAll

end Sys2Proof.Machine
end

