-- ==== Sys2Proof/Machine/Rings.lean ====
section
/-! DEFINITION. Rings (R68–R86): doorbells, entry fetches, reads and their failures (R60–R63), held records, draining,
and the ring commands (R152). -/

namespace Sys2Proof.Machine

/-! ### Doorbells (R72, R74) -/

/-- The conditions under which a doorbell is accepted (R72). -/
def Ring.accepts (r : Ring) (fn new : Nat) : Bool :=
  let m := 2 ^ 32
  r.owner = fn && (r.st = .running || r.st = .stalled) &&
    (if r.hostProduced then
       decide ((new + m - r.head) % m ≤ r.size) && decide ((new + m - r.tail) % m ≤ (new + m - r.head) % m)
     else decide ((new + m - r.head) % m ≤ (r.tail + m - r.head) % m))

/-- The host's CPL doorbell has passed the records with indices from `a` up to `b`: their tags return (R82, R114). -/
def Dev.freeTags (d : Dev) (k a b : Nat) : Dev :=
  let m := 2 ^ 32
  { d with tags := Tab.mapAll (fun (_ : Nat) (t : Tag) =>
      if t.st = TagSt.written && t.ring = some k && decide ((t.cplIdx + m - a) % m < (b + m - a) % m) then Tag.reset else t) d.tags }

/-- An accepted doorbell: the host's index moves and the watermark condition is armed again. -/
def Dev.bell (d : Dev) (k new : Nat) : Dev :=
  let r := d.ring k
  let d := if r.type = 8 then d.freeTags k r.head new else d
  d.setRing k (if r.hostProduced then { r with tail := new, armed := true } else { r with head := new, armed := true })

/-- A doorbell of a function (R72): `half` marks a 32-bit write to the upper half of a slot, which is none. -/
def Dev.doorbell (d : Dev) (fn k idx : Nat) (half : Bool) : Dev :=
  let new := idx % 2 ^ 32
  if half || !((d.ring k).accepts fn new) then d.updPath fn (fun p => { p with eDb := satInc 255 p.eDb }) else d.bell k new

/-- DOORBELL: a write of function `fn` to BAR2 slot `k`, or `k` named through RING_SDB (R72). -/
def execDoorbell (fn k idx : Nat) (half : Bool) (s : State) : Host.Outcome State Fault Refusal :=
  .next (s.onLive (fun d => if d.link.up && decide (fn < 2 ∧ k < 4096) then d.doorbell fn k idx half else d))

/-! ### Reads (R60, R62, R63, R73) -/

/-- Record of a read that failed, and its AER entry (R57, R63; log entry 13); none for one that the fence dropped or that
was aborted. -/
def Dev.readRecord (d : Dev) (st iova len : Nat) (r : ReadRes) : Dev :=
  let fn := d.streamFn st
  let dom := d.streamDom st
  match r with
  | .timeout => (d.fltRecord fn 2 0 st dom 0 iova len).aerSet fn 14
  | .poisoned e => (d.fltRecord fn 3 0 st dom 0 iova len).aerSet fn (if e then 19 else 12)
  | .cplError ca => (d.fltRecord fn 4 0 st dom 0 iova len).aerSet fn (if ca then 15 else 20)
  | _ => d

/-- The read failed in a way that is not repeated beyond once (R63). -/
def ReadRes.failed : ReadRes → Bool
  | .timeout | .poisoned _ | .cplError _ => true
  | _ => false

/-- HEAD passes `n` entries of a host-produced ring (R73). -/
def Dev.pass (d : Dev) (k n : Nat) : Dev :=
  (d.updRing k (fun r => { r with head := (r.head + n) % 2 ^ 32 })).moved k

/-- HEAD passes one entry. -/
def Dev.passEntry (d : Dev) (k : Nat) : Dev := d.pass k 1

/-- Count a LATE_DROP or an invalid entry on a host-produced ring (R85). -/
def Dev.countBad (d : Dev) (k : Nat) : Dev := d.updRing k (fun r => { r with cntB := satInc 65535 r.cntB })

/-- The entry after the one with SC `sc`, or after an entry that came to nothing, is expected 32 samples on (R60, R75). -/
def Ring.lead (r : Ring) (sc : Option Nat) : Ring :=
  { r with nextSc := match sc with | some x => some (x + 32) | none => r.nextSc.map (· + 32) }

/-- An SRC entry that has come: invalid entries and past ones are discarded and counted, others are staged (R75, R80).
DESIGN CHOICE (log entry 65): a valid entry discarded as past is the previous accepted entry for the next one's check. -/
def Dev.srcEntry (d : Dev) (k : Nat) (b : List Nat) : Dev :=
  let r := d.ring k
  let o := r.bind
  let a := d.obj o
  let sc := fld b 0 8
  let flags := fld b 8 4
  let late : Bool := match a.lastSc with | some p => decide (sc < p + 32) | none => false
  let invalid : Bool := sc % 32 ≠ 0 || late || decide (3 < flags) || fld b 16 16 ≠ 0
  let past : Bool := decide (sc < (d.dom r.domain).nextBlk)
  if invalid then (d.updRing k (fun r => r.lead none)).countBad k
  else
    let d := (d.updRing k (fun r => r.lead (some sc))).setObj o { a with lastSc := some sc }
    if past then d.countBad k
    else d.updObj o (fun a => { a with staged := a.staged ++ [{ sc := sc, flags := flags, seq := fld b 12 4,
                                                                samples := words b 32 32 }] })

/-- An LDLY entry of 32 samples read back for position `pos` (R167). -/
def Dev.ldlyEntry (d : Dev) (k pos : Nat) (b : List Nat) : Dev :=
  let o := (d.ring k).bind
  d.updObj o (fun a => { a with hist := a.hist ++ [{ sc := pos, flags := 0, seq := 0, samples := words b 0 32 }] })

/-- Units of a TDMO record; `none` where the record is malformed and puts the ring into ERROR (R76). -/
def Ring.recUnits (r : Ring) (b : List Nat) : Option Nat :=
  let kind := fld b 0 1
  let len := fld b 4 2
  if kind = 0 ∨ 3 < kind ∨ len = 0 ∨ r.occ < len then none else some len

/-- A whole TDMO record (R76): a PAD or FORMAT record is passed; a BLOCK record is staged for the port; one that breaks its
layout, or that is past, is discarded and counted. -/
def Dev.tdmoRecord (d : Dev) (k len : Nat) (b : List Nat) : Dev :=
  let nf := fld b 2 1
  let nch := fld b 3 1
  let sc := fld b 16 8
  let bad : Bool := fld b 1 1 ≠ 0 || fld b 6 2 ≠ 0 || nf = 0 || nch ≠ (maskList 32 (fld b 24 4)).length
    || len ≠ 1 + (nf * nch * 4 + 31) / 32
  let p := d.port (d.ring k).bind
  let late : Bool := p.st = .locked && decide (sc + nf ≤ p.txNext)
  let d := d.pass k len
  if fld b 0 1 ≠ 1 then d
  else if bad then d.countBad k
  else
    let d := d.updRing k (fun r => { r with nextSc := some (sc + nf) })
    if late then d.countBad k else d.updRing k (fun r => { r with staged := r.staged ++ [b] })

/-- Use the bytes of an entry that has been read: an SRC entry is checked and staged, an update frame waits for Ramcen. -/
def Dev.useEntry (d : Dev) (k : Nat) (b : List Nat) : Dev :=
  if (d.ring k).type = 1 then d.srcEntry k b else d.updRing k (fun r => { r with staged := r.staged ++ [b] })

/-- Reads of a stream under way, in the order of issue. -/
def Trn.readsOf (t : Trn) (st : Nat) : List Rd := t.reads.filter (fun x => x.stream = st)

/-- A read is no longer under way. -/
def Dev.dropRead (d : Dev) (no : Nat) : Dev :=
  { d with trn := { d.trn with reads := d.trn.reads.filter (fun x => x.no ≠ no) }, link := { d.link with lastReq := d.sys.uptime } }

/-- HEAD passes the entries whose reads have ended, as far as no earlier one is still under way, each used in index order
(R73). -/
def Dev.settleReads (d : Dev) (k : Nat) : Dev :=
  ((d.trn.readsOf k).takeWhile (·.taken)).foldl (fun d x =>
    if !((d.ring k).st = .running || (d.ring k).st = .stalled) then d
    else
      let d := d.dropRead x.no
      let d := if x.got.isEmpty then d.updRing k (fun r => r.lead none)
        else if x.got.length = 1 then d else d.useEntry k x.got
      d.passEntry k) d

/-- First sample of the application block A(F) of frame `f` of domain `r` (R198). -/
def Dev.appBlk (d : Dev) (r f : Nat) : Nat :=
  let m := d.dom (d.clk r)
  m.ceilBlk (m.scOfStamp (d.stampPos r (f * 2 ^ 32)))

/-- The entry behind `n` others of ring `k`, from which domain `r`'s scene stream reads, may be read: at the earliest 8
blocks before the render start of its application block, taking its frame to follow on those before it (R189, R198,
R199). -/
def Dev.frameDue (d : Dev) (r k n : Nat) : Bool :=
  let s := d.stream r
  let m := d.dom (d.clk r)
  let f := (s.expect + (d.ring k).staged.length + n) % rateMod m.rate
  s.en && s.ring = some k && d.renders r && decide (d.appBlk r f ≤ (d.dom r).nextBlk + 8 * m.blk)

/-- The render start of a block finds SRC entries that have come behind one whose read is still under way: they are used
now (R60), and HEAD waits. -/
def Dev.useArrived (d : Dev) (k : Nat) : Dev :=
  let l := (d.trn.readsOf k).filter (fun x => x.taken && decide (1 < x.got.length))
  let d := { d with trn := { d.trn with reads := d.trn.reads.map (fun x => if x.stream = k && x.taken && !x.got.isEmpty then { x with got := [0] } else x) } }
  l.foldl (fun d x => d.srcEntry k x.got) d

/-- The read `x` of ring `k` has ended with some bytes, or with none (absent). -/
def Dev.arrive (d : Dev) (k : Nat) (x : Rd) (b : List Nat) : Dev :=
  let r := d.ring k
  match r.type with
  | 1 | 3 =>
    ({ d with trn := { d.trn with reads := d.trn.reads.map (fun y => if y.no = x.no then { y with taken := true, got := b } else y) } } : Dev).settleReads k
  | 2 => if b.isEmpty then d.dropRead x.no else (d.dropRead x.no).ldlyEntry k x.pos b
  | 5 =>
    let d := d.dropRead x.no
    if b.isEmpty then d.pass k (min r.occ (max 1 ((x.len + 31) / 32)))
    else match r.recUnits b with
      | none => d.ringError k 4
      | some n =>
        if 32 * n ≤ x.len then d.tdmoRecord k n b
        else if r.barredAt x.iova (32 * n) then d.pass k n
        else d.request k x.iova (32 * n) 0
  | _ => d.dropRead x.no

/-- The next read of ring `k` that is due, where one is (R60): address, length and position. An SRC entry and an update
frame are expected 32 samples, or one frame, after the one before; a TDMO record after the samples of the one before. -/
def Dev.nextRead (d : Dev) (k : Nat) : Option (Nat × Nat × Nat) :=
  let r := d.ring k
  let m := d.dom r.domain
  let S := (d.dom (d.clk r.domain)).blk
  let n := (d.trn.readsOf k).length
  let entry : Nat × Nat × Nat := (r.slotAddr (r.head + n), r.esize, (r.head + n) % 2 ^ 32)
  let base := r.nextSc.getD m.nextBlk
  match r.type with
  | 1 =>
    let a := d.obj r.bind
    if a.src = 1 && a.bind = k && !a.stopped && decide (n < r.occ) && decide (base + 32 * n < m.nextBlk + 4 * S) then some entry
    else none
  | 2 =>
    let a := d.obj r.bind
    let from_ := max a.ldlyNext ((m.nextBlk - a.bulk) / 32 * 32)
    if a.ldly = some k && a.ringReg && !a.stopped && decide (a.bulk ≤ m.nextBlk) && decide (from_ + a.bulk < m.nextBlk + 5 * S)
        && decide (from_ + 32 ≤ a.written) then
      some (r.slotAddr (a.ldlyBase.getD 0 + from_ / 32), 128, from_)
    else none
  | 3 => if decide (n < r.occ) && d.frameDue r.domain k n then some entry else none
  | 5 =>
    if n = 0 && decide (0 < r.occ) && (d.ports.any (fun p => p.2.txring = some k)) && decide (base < m.nextBlk + 4 * S) then
      some (r.slotAddr r.head, 32, 0)
    else none
  | _ => none

/-- Issue one read of ring `k` that is due; an entry on a barred page is absent without a read (R56). -/
def Dev.fetchOne (d : Dev) (k : Nat) : Dev :=
  let r := d.ring k
  if !d.ringOpen k || d.stalled k || (d.dom r.domain).st = .disabled || !d.readRoom k then d
  else match d.nextRead k with
    | none => d
    | some (a, len, pos) =>
      let d := if r.type = 2 then d.updObj r.bind (fun o => { o with ldlyNext := pos + 32 }) else d
      if r.barredAt a len then
        let x : Rd := { stream := k, iova := a, len := len, pos := pos, since := d.sys.uptime, no := d.trn.readNo, taken := false, got := [] }
        (({ d with trn := { d.trn with reads := d.trn.reads ++ [x], readNo := d.trn.readNo + 1 } } : Dev).arrive k x [])
      else d.request k a len pos

/-- Issue the reads of ring `k` that are due. -/
def Dev.fetch (d : Dev) (k : Nat) : Dev := (List.range 16).foldl (fun d _ => d.fetchOne k) d

/-- The same for every ring that the device reads. -/
def Dev.fetchAll (d : Dev) : Dev :=
  d.forEach ((d.rings.filter (fun p => p.2.type = 1 || p.2.type = 2 || p.2.type = 3 || p.2.type = 5)).map (·.1)) (fun k d => d.fetch k)

/-- A read of a ring's data ends (R60, R63): data is used; anything else leaves it absent. While the ring drains read data is
discarded and HEAD stays, since such an entry is not consumed; timeouts are counted (R83). -/
def Dev.ringRead (d : Dev) (k : Nat) (x : Rd) (res : ReadRes) : Dev :=
  let d := if res = .timeout then d.countReq k else d
  let r := d.ring k
  if r.st = .draining then
    (d.dropRead x.no).updRing k (fun r => { r with timeouts := if res = .timeout then satInc (2 ^ 32 - 1) r.timeouts else r.timeouts })
  else if !(r.st = .running || r.st = .stalled) then d.dropRead x.no
  else match res with
    | .data b => d.arrive k x (bytesOf b)
    | _ => d.arrive k x []

/-- The read of a notice's message ends: it is taken, or answered BAD_POINTER (R63, R92). -/
def Dev.noticeRead (d : Dev) (ch : Nat) (res : ReadRes) : Dev :=
  match (d.mbx ch).takenHead with
  | none => d
  | some n => match res with
    | .data b => d.noticeData ch n b
    | _ => d.noticeFail ch

/-! ### CMD entries (R63, R77) -/

/-- The two tries of a CMD entry or descriptor read: the bytes, or none after the second failure; records of the
failures. -/
def Dev.twice (d : Dev) (k iova len : Nat) (a b : ReadRes) : Dev × Option (List Nat) × Bool :=
  match a with
  | .data x => (d, some (bytesOf x), false)
  | _ =>
    if ReadRes.failed a then
      let d := d.readRecord k iova len a
      match b with
      | .data x => (d, some (bytesOf x), false)
      | _ => (d.readRecord k iova len b, none, ReadRes.failed b)
    else (d, none, false)

/-- A translation of the stream's own access by the entries that a walk reads. -/
def Dev.walkStall (d : Dev) (k iova len : Nat) (r : ReadRes) : Dev :=
  match r with
  | .tableFault es => d.walked k iova len false es
  | _ => d

/-- A CMD entry cannot be had: the ring enters ERROR, or while draining the entry is passed (R63, R83). -/
def Dev.entryBad (d : Dev) (k err : Nat) : Dev :=
  if (d.ring k).st = .draining then (d.passEntry k).updRing k (fun r => { r with drop := satInc (2 ^ 32 - 1) r.drop })
  else d.ringError k err

/-- CMD ring `k` has an entry that can be fetched. -/
def Dev.cmdWork (d : Dev) (k : Nat) : Bool :=
  let r := d.ring k
  d.link.up && (r.st = .running || r.st = .draining) && !d.ringFenced k && r.type = 7 && r.occ ≠ 0

/-- Among CMD rings one descriptor is taken from each that has work, in ascending ring number, in turn (R118): no other ring
with work lies between the one served last and this one. -/
def Dev.cmdTurn (d : Dev) (k : Nat) : Bool :=
  let gap := fun (j : Nat) => (j + 4096 - d.cmdLast - 1) % 4096
  d.rings.all (fun p => p.1 = k || !d.cmdWork p.1 || decide (gap k < gap p.1))

/-- CMD_ENTRY_FETCH: the next entry of CMD ring `k`, whose turn it is, and its descriptor are read, each with its second
try (R63, R77, R118). A DRAINING ring's entries are fetched to be cancelled (R83). -/
def execCmdEntryFetch (k : Nat) (e1 e2 d1 d2 : ReadRes) (s : State) : Host.Outcome State Fault Refusal :=
  .next (s.onLive (fun d =>
    let r := d.ring k
    if !d.cmdWork k || !d.cmdTurn k || !d.sys.ready || d.sys.recovery then d
    else
      let d := { d with cmdLast := k }
      let a := d.sendRead k (r.slotAddr r.head) 16
      if !a.2 then a.1 else
      let e := (a.1.walkStall k (r.slotAddr r.head) 16 e1).twice k (r.slotAddr r.head) 16 e1 e2
      match e.2.1 with
      | none => if e.2.2 then e.1.entryBad k 5 else e.1
      | some eb =>
        let iova := fld eb 0 8
        if iova % 64 ≠ 0 ∨ 2 ^ 38 ≤ iova ∨ fld eb 8 8 ≠ 0 then e.1.entryBad k 4
        else
          let g := e.1.sendRead k iova 64
          if !g.2 then g.1 else
          let f := (g.1.walkStall k iova 64 d1).twice k iova 64 d1 d2
          match f.2.1 with
          | none => if f.2.2 then f.1.entryBad k 5 else f.1
          | some db =>
            let d := f.1.passEntry k
            let raw : Raw := { via := .ring k, len := 64, reply := 0, tag := none, bytes := (db.take 64).map (BitVec.ofNat 8) }
            { d with fetched := d.fetched ++ [raw] }))

/-! ### Records of device-produced rings (R76, R81) -/

/-- Units of PAD that a record needs before it, so that it does not wrap past the ring's end (R76). -/
def Ring.pad (r : Ring) (units : Nat) : Nat :=
  let left := r.size - r.tail % r.size
  if (r.type = 4 || r.type = 6) && decide (left < units) then left else 0

/-- The ring has space for a record and its PAD. -/
def Ring.fits (r : Ring) (bytes : List Nat) : Bool :=
  let u := bytes.length / max 1 r.esize
  decide (r.occ + r.pad u + u ≤ r.size)

/-- A PAD record of a number of units before record `b` (R76): KIND 0x03 with the NCH and MASK in force, which are `b`'s,
and LT, SC and SEQ of `b` (log entry 28). -/
def padBytes (units : Nat) (b : List Nat) : List Nat :=
  [3, 0, 0, fld b 3 1] ++ le 2 units ++ le 2 0 ++ (b.drop 8).take 24 ++ List.replicate (32 * (units - 1)) 0

/-- Places that a record at the tail is written to, the PAD that it needs before it among them (R76). -/
def Ring.recAt (r : Ring) (bytes : List Nat) : List (Nat × Nat) :=
  let p := r.pad (bytes.length / max 1 r.esize)
  (if p = 0 then [] else [(r.slotAddr r.tail, p * r.esize)]) ++ [(r.slotAddr (r.tail + p), bytes.length)]

/-- Write a record at the tail, behind the PAD that it needs (R76). -/
def Dev.putUnits (d : Dev) (k : Nat) (bytes : List Nat) : Dev :=
  let r := d.ring k
  let u := bytes.length / max 1 r.esize
  let p := r.pad u
  let d := if p = 0 then d else d.dma r.owner (r.slotAddr r.tail) true r.iso false (padBytes p bytes)
  let a := r.slotAddr (r.tail + p)
  let d := (d.dma r.owner a true r.iso (d.epAt k a) bytes).epDone k a
  (d.updRing k (fun r => { r with tail := (r.tail + p + u) % 2 ^ 32 })).moved k

/-- A record for a MEAS, LOG, TDMI or MIC ring: written, or held up to 64 KiB, or lost and counted, as it is while the
ring is FENCED (R56, R66, R81, R84, R85). -/
def Dev.record (d : Dev) (k : Nat) (bytes : List Nat) : Dev :=
  let r := d.ring k
  let x := if d.ringOpen k && r.staged.isEmpty && r.fits bytes then d.reachAt k (r.recAt bytes) else (d, false)
  let d := x.1.updRing k (fun r => { r with recSeq := (r.recSeq + 1) % 2 ^ 32 })
  if x.2 then d.putUnits k bytes
  else if ((r.staged.map List.length).sum + bytes.length) ≤ 65536 && (r.st = .running || r.st = .stalled || r.st = .error || r.st = .draining) then
    d.updRing k (fun r => { r with staged := r.staged ++ [bytes], cntB := satInc 65535 r.cntB })
  else d.updRing k (fun r => { r with cntA := satInc 65535 r.cntA })

/-- Write one tag's record to its CPL ring, which can be reached. -/
def Dev.writeCpl (d : Dev) (n k : Nat) : Dev :=
  let t := d.tag n
  let idx := (d.ring k).tail
  (d.setTag n { t with st := .written, cplIdx := idx }).putEntry k
    (cplBytes n t.status t.opcode t.flags t.lt t.result t.epoch)

/-- The held tags of a CPL ring in the order in which they finished. -/
def Dev.heldOf (d : Dev) (k : Nat) : List Nat :=
  ((sortBy (fun (p : Nat × Tag) => p.2.seq) (d.tags.filter (fun p => p.2.st = .held && p.2.ring = some k && !p.2.side))).map (·.1))

/-- One held record of a ring, in the original order (R18, R81): an event of its function, a completion, or a staged
record. -/
def Dev.writeHeld (d : Dev) (k : Nat) : Dev :=
  let r := d.ring k
  match r.type with
  | 9 => match (d.fn r.owner).held with
    | [] => d
    | e :: t => if d.firstRing r.owner 9 = some k && r.room then
        let x := d.reach k 32
        if x.2 then (x.1.updFn r.owner (fun f => { f with held := t })).putEntry k ({ e with flags := e.flags ||| 2 } : Evt).bytes
        else x.1
      else d
  | 8 => match d.heldOf k with
    | [] => d
    | n :: _ => if r.room then (let x := d.reach k 32; if x.2 then x.1.writeCpl n k else x.1) else d
  | _ => match r.staged with
    | [] => d
    | b :: t =>
      if r.hostProduced || !r.fits b then d
      else
        let x := d.reachAt k (r.recAt b)
        if x.2 then (x.1.updRing k (fun r => { r with staged := t })).putUnits k b else x.1

/-- HELD_RECORD_WRITE: the oldest held record of ring `k` is written once there is space (R81); completions and
events wait for the processor (R16, R344). -/
def execHeldRecordWrite (k : Nat) (s : State) : Host.Outcome State Fault Refusal :=
  .next (s.onLive (fun d =>
    let ours : Bool := (d.ring k).type = 8 || (d.ring k).type = 9
    if d.ringOpen k && !d.stalled k && (d.sys.ready || !ours) then d.writeHeld k else d))

/-! ### Setting up and destroying rings (R79, R82, R83) -/

/-- Entry size of a type is as R69 fixes it. -/
def esizeOk (type esize : Nat) : Bool :=
  match type with
  | 1 => esize = 160
  | 2 => esize = 128
  | 3 => decide (64 ≤ esize ∧ esize ≤ 4096) && esize % 64 = 0
  | 4 | 5 | 6 | 8 | 9 | 11 => esize = 32
  | 7 => esize = 16
  | 10 | 12 => esize = 64
  | _ => false

/-- BIND is in the range of its type (R69). -/
def bindOk (type bind : Nat) : Bool :=
  match type with
  | 1 | 2 => decide (bind < 256)
  | 4 | 5 | 6 => decide (bind < 4)
  | 7 => decide (bind < 4096)
  | _ => bind = 0

/-- Active slots or microphones of a mask. -/
def countBits (m : Nat) : Nat := (maskList 32 m).length

/-- ISOCHRONOUS credit of a ring in bytes per second: read and write (R82). -/
def Dev.credit (d : Dev) (type esize domain bind : Nat) : Nat × Nat :=
  let m := d.dom (d.clk domain)
  let x := if m.dbl then 2 else 1
  let fps := rateFps m.rate
  match type with
  | 1 => (240000 * x, 0)
  | 2 => (192000 * x, 192000 * x)
  | 3 => ((esize * fps.1 + fps.2 - 1) / fps.2, 0)
  | 4 => (0, (32 + 128 * countBits (d.port bind).rx) * 1500 * x)
  | 5 => ((32 + 128 * countBits (d.port bind).tx) * 1500 * x, 0)
  | 6 =>
    let mask := (d.pdm.gmask[bind]?).getD 0
    let nf := if (d.chain (96 + (maskList 32 mask).headD 0)).preset = 1 then 128 else 32
    (0, (32 + nf * countBits mask * 4) * 1500)
  | _ => (0, 0)

/-- Credit charged so far, without ring `k`: read and write. -/
def Dev.charged (d : Dev) (k : Nat) : Nat × Nat :=
  let l := d.rings.filter (fun p => p.1 ≠ k)
  ((l.map (fun p => p.2.rdCr)).sum, (l.map (fun p => p.2.wrCr)).sum)

/-- Another ring of the type holds the binding (R69). -/
def Dev.bindHeld (d : Dev) (k type bind : Nat) : Bool :=
  (type = 1 || type = 2 || type = 4 || type = 5 || type = 6) &&
    d.rings.any (fun p => p.1 ≠ k && p.2.type = type && p.2.bind = bind && p.2.st ≠ .disabled)

/-- RING_SETUP (R68–R70, R79, R82). -/
def checkRingSetup (d : Dev) (sender k : Nat) (x : RingDesc) : Option Nat :=
  let fn := fnOf sender
  let r := d.ring k
  let b := d.ring x.bind
  let host : Bool := x.type = 1 || x.type = 3 || x.type = 5 || x.type = 7
  let occ := (x.tail + 2 ^ 32 - x.head) % 2 ^ 32
  let cr := d.credit x.type x.esize x.domain x.bind
  let ch := d.charged k
  firstFail [((r.st ≠ .disabled && r.owner ≠ fn) || (d.fn fn).fenced
      || (x.type = 7 && b.type = 8 && b.st ≠ .disabled && b.owner ≠ fn), NOT_PERMITTED),
    (out k 0 4095 || x.base % 4096 ≠ 0 || out x.log2n 2 20 || !esizeOk x.type x.esize || out x.domain 0 3
      || x.owner ≠ 0 || out x.vector 0 127 || x.state ≠ 0 || decide (2 ^ x.log2n < x.wmark) || !bindOk x.type x.bind
      || (if host then decide (2 ^ x.log2n < occ) else x.tail ≠ x.head)
      || (x.type = 7 && (b.type ≠ 8 || b.st = .disabled)), OUT_OF_RANGE),
    (r.st = .running || r.st = .stalled || r.st = .draining || d.bindHeld k x.type x.bind
      || decide (d.link.rdRes * 1000000 < ch.1 + cr.1) || decide (d.link.wrRes * 1000000 < ch.2 + cr.2), BUSY)]

/-- SC of the block boundary that a ring published at last, or would have (R70, R73): that of its domain's next block, of the
clock master's for a MIC ring. DESIGN CHOICE (log entry 65) for a publication that lies on no boundary: RING_SETUP's and a
destroy's final one. -/
def Dev.boundarySc (d : Dev) (k : Nat) : Nat :=
  let r := d.ring k
  (d.dom (if r.type = 6 then d.tb.master else r.domain)).nextBlk

/-- RING_SETUP: the ring is RUNNING with its counters cleared, its index block written, its credit charged. What the device
held for it while it was in ERROR stays held (R81), and the other function's cause bit of the ring, which it no longer
owns, reads 0 (R407). An object's long-delay history stays where a LDLY ring is set up again at the same place with the
same size; else the binding is one to a fresh ring (R167, R168; log entry 65). -/
def applyRingSetup (d : Dev) (sender k : Nat) (x : RingDesc) : Dev :=
  let was := d.ring k
  let cr := d.credit x.type x.esize x.domain x.bind
  let r := { Ring.reset with
    base := x.base, log2n := x.log2n, type := x.type, esize := x.esize, domain := x.domain, owner := fnOf sender,
    vector := x.vector, st := .running, wmark := x.wmark, bind := x.bind, head := x.head, tail := x.tail,
    armed := true, rdCr := cr.1, wrCr := cr.2,
    staged := if was.st = .error && was.type = x.type && !was.hostProduced then was.staged else [] }
  let d := d.updFn (1 - fnOf sender) (fun f =>
    { f with intRing := Tab.set f.intRing (k / 32) (Tab.get 0 f.intRing (k / 32) &&& (2 ^ 32 - 1 - 2 ^ (k % 32))) })
  let d := if was.st = .error && was.err = 3 then d.closing 0x010D 5 else d
  let d := (d.dropStream k).setRing k r
  let d := d.publish k (d.boundarySc k)
  if x.type = 1 then
    d.updObj x.bind (fun o => if o.src = 1 && o.bind = k then { o with played := false, staged := [], lastSc := none } else o)
  else if x.type = 2 && !(was.base = x.base && was.log2n = x.log2n) then
    d.updObj x.bind (fun o => if o.ldly = some k then
      { o with gaps := [], allGap := false, hist := [], written := 0, ldlyBase := none, ldlyNext := 0 } else o)
  else d

/-- A port lets go of a ring: it runs on without it (R83). -/
def TPort.letGo (t : TPort) (k : Nat) : TPort :=
  let rx : Bool := t.rxring = some k
  let tx : Bool := t.txring = some k
  { t with rxring := if rx then none else t.rxring, txring := if tx then none else t.txring,
           rgates := t.rgates.filter (fun e => !((rx && decide (e.1 < 32)) || (tx && decide (32 ≤ e.1)))) }

/-- The ports' rings and the object's source that a destroyed ring ends (R83 step 2). -/
def Dev.unbind (d : Dev) (k : Nat) : Dev :=
  let d := { d with ports := Tab.mapAll (fun (_ : Nat) (p : TPort) => p.letGo k) d.ports }
  { d with acou := { d.acou with ring := if d.acou.ring = some k then none else d.acou.ring },
           streams := Tab.mapAll (fun (_ : Nat) (s : Stream) => { s with ring := if s.ring = some k then none else s.ring }) d.streams }

/-- The object that plays from an SRC ring. -/
def Dev.srcObj (d : Dev) (k : Nat) : Option Nat :=
  ((d.objs.filter (fun p => p.2.src = 1 && p.2.bind = k)).head?).map (·.1)

/-- The ring is DISABLED: its credit is returned (R79, R82), an object's long-delay binding ends (R168). -/
def Dev.ringOff (d : Dev) (k : Nat) : Dev :=
  let d := (d.updRing k (fun r => { r with st := .disabled, rdCr := 0, wrCr := 0, staged := [], barred := [], endTag := none,
                                           armed := false, wmDue := false, drop := 0, timeouts := 0 })).recall k
  let d := d.dropStream k
  (d.ldlyGone k).unbind k

/-- Some CMD ring that is not DISABLED names the CPL ring. -/
def Dev.cplNamed (d : Dev) (k : Nat) : Bool :=
  (d.ring k).type = 8 && d.rings.any (fun p => p.2.type = 7 && p.2.bind = k && p.2.st ≠ .disabled)

/-- Some mailbox channel is bound to the ring (R98). -/
def Dev.cplBound (d : Dev) (k : Nat) : Bool := d.mbxs.any (fun p => p.2.cpl = some k)

/-- RING_DESTROY (R79, R83, R98, R152). -/
def checkRingDestroy (d : Dev) (sender k : Nat) : Option Nat :=
  let r := d.ring k
  firstFail [(r.st ≠ .disabled && r.owner ≠ fnOf sender, NOT_PERMITTED), (out k 0 4095, OUT_OF_RANGE),
    (r.st = .draining || (r.st ≠ .disabled && (d.cplNamed k || d.cplBound k)), BUSY)]

/-- Entries or records that the device did not consume or write (R83): RESULT [31:0]. -/
def Ring.left (r : Ring) : Nat := if r.type = 7 then r.drop else if r.hostProduced then r.occ else r.staged.length

/-- Slots of a port that ring `k` records or feeds, by gate number, with their last values. -/
def TPort.slotsOf (t : TPort) (k : Nat) : List (Nat × Int) :=
  if t.rxring = some k then (maskList 32 t.rx).map (fun s => (s, (t.lastRx[s]?).getD 0))
  else if t.txring = some k then
    ((maskList 32 t.tx).filter (fun s => let r := (t.route[s]?).getD 65535; decide (0x300 ≤ r ∧ r < 0x320))).map
      (fun s => (s + 32, (t.lastTx[s]?).getD 0))
  else []

/-- The port's slots that a ring being destroyed records or feeds wait for their zero crossings, a silent one skipping the
wait; where no frames come, or no slot is concerned, the binding ends at once (R83 step 2). -/
def Dev.portQuiet (d : Dev) (k : Nat) : Dev :=
  { d with ports := Tab.mapAll (fun (_ : Nat) (t : TPort) =>
    let l := t.slotsOf k
    if t.st ≠ .locked || l.isEmpty then t.letGo k
    else { t with rgates := l.foldl (fun (g : Tab Gate) (e : Nat × Int) => Tab.set g e.1
      { Gate.reset with st := if e.2 = 0 then .crossed else .waitOut, since := d.sys.uptime, limit := t.zcto, last := e.2 }) t.rgates }) d.ports }

/-- RING_DESTROY from acceptance (R79, R83): a running ring drains; one in ERROR or FENCED ends at once. DESIGN CHOICE (log
entry 65): RESULT for a CMD ring that ends at once is its occupancy, although nothing is completed with CANCELLED. -/
def applyRingDestroy (d : Dev) (tag k : Nat) : Dev :=
  let r := d.ring k
  match r.st with
  | .disabled => d.complete tag
  | .error | .fenced =>
    let d := match d.srcObj k with | some o => d.objOff o | none => d
    ((d.setResult tag (if r.type = 7 then r.occ else r.left)).ringOff k).complete tag
  | _ =>
    let c := d.cancelTags tag (fun t => Tag.aims t [.ring k])
    let d := (c.1.unstall k).recall k
    let d := d.updTag tag (fun t => { t with ph := .ending })
    let d := d.updRing k (fun r => { r with st := .draining, endTag := some tag, drop := 0, timeouts := 0 })
    match d.srcObj k with
    | some o => d.objQuiet o 0
    | none => d.portQuiet k

/-- The drain of a ring has nothing left to wait for: its object or its port's slots are silent, its requests have
ended, its entries are fetched (R83 steps 2, 3 and 5). -/
def Dev.drained (d : Dev) (k : Nat) : Bool :=
  let r := d.ring k
  r.st = .draining && (d.srcObj k).isNone && d.ports.all (fun p => p.2.rxring ≠ some k && p.2.txring ≠ some k) && (d.trn.readsOf k).all (·.taken) && (r.type ≠ 7 || (r.occ = 0 && d.fetched.all (fun w => w.via ≠ .ring k)))

/-- The staged records of a device-produced ring are written while there is room, and DIDX is published (R83 step 4). -/
def Dev.flushRing (d : Dev) (k : Nat) : Dev :=
  let r := d.ring k
  if r.hostProduced || r.type = 8 || r.type = 9 then d
  else
    let d := r.staged.foldl (fun (d : Dev) (_ : List Nat) =>
      d.writeHeld k) d
    d.publish k (d.boundarySc k)

/-- A destroyed ring is DISABLED and RING_DESTROY completes (R79, R83). -/
def Dev.destroyed (d : Dev) (k : Nat) : Dev :=
  let r := d.ring k
  let d' := d.ringOff k
  match r.endTag with
  | some t => (d'.setResult t (r.left + r.timeouts * 2 ^ 32)).complete t
  | none => d'

/-- DRAIN_COMPLETE: the last request of a DRAINING ring has ended (R79, R83). -/
def execDrainComplete (k : Nat) (_timeouts : Own) (s : State) : Host.Outcome State Fault Refusal :=
  .next (s.onLive (fun d => if d.drained k then (d.flushRing k).destroyed k else d))

/-- LINK_SHORT (R49): event and record. -/
def Dev.linkShort (d : Dev) (usable : Nat) : Dev := d.alarm 0x0103 0 usable

/-- Usable rate in MB/s of a trained link (R49). -/
def usableRate (speed width : Nat) : Nat :=
  match speed, width with
  | 1, 1 => 220 | 1, _ => 440 | 2, 1 => 440 | 2, _ => 880 | 3, 1 => 866 | 3, _ => 1733 | _, 1 => 1733 | _, _ => 3466

/-- ISO_RESERVE (R152). -/
def checkIsoReserve (d : Dev) (rd wr : Nat) : Option Nat :=
  let ch := d.charged 4096
  firstFail [(out rd 0 160 || out wr 0 160, OUT_OF_RANGE),
    (decide (rd * 10000000 < ch.1) || decide (wr * 10000000 < ch.2), BUSY)]

/-- The usable rate falls short of 1.25 times a reservation (R49). -/
def shortOf (usable rd wr : Nat) : Bool := decide (4 * usable < 5 * max rd wr)

/-- ISO_RESERVE: a reservation raised above 80 % of its direction's usable rate raises LINK_SHORT (R49). -/
def applyIsoReserve (d : Dev) (rd wr : Nat) : Dev :=
  let u := usableRate d.link.speed d.link.width
  let raised : Bool := (decide (d.link.rdRes < 10 * rd) && shortOf u (10 * rd) 0)
    || (decide (d.link.wrRes < 10 * wr) && shortOf u 0 (10 * wr))
  let short := d.link.up && shortOf u (10 * rd) (10 * wr)
  let d := { d with link := { d.link with rdRes := 10 * rd, wrRes := 10 * wr, short := short } }
  if short && raised then d.linkShort u else d

end Sys2Proof.Machine
end

