-- ==== Sys2Proof/Machine/Diagnostics.lean ====
section
/-! DEFINITION. Load diagnostics (R284–R301): running a test, disturbed windows, classing, records, quiet windows, the
pilot and acoustic verification. -/

namespace Sys2Proof.Machine

/-- Change the diagnostics of a channel. -/
def Dev.updDiag (d : Dev) (n : Nat) (f : Diag → Diag) : Dev := d.updChan n (fun c => { c with diag := f c.diag })

/-! ### Admission (R286) -/

/-- The state checks of R286 that the three test commands share. -/
def Dev.testBusy (d : Dev) (mask when_ : Nat) : Bool :=
  let l := chList mask
  l.any (fun n => (d.chan n).diag.ph ≠ .idle)
    || (when_ = 0 && l.any (fun n => (d.chan n).st = .switching && !(d.chan n).mute))
    || (when_ = 1 && d.acou.wins.isEmpty)

/-- DIAG_RUN (R150, R286). -/
def checkDiagRun (d : Dev) (mask test when_ : Nat) : Option Nat :=
  firstFail [(d.namesPartner mask, NOT_PERMITTED), (badMask 48 mask || out test 0 2 || out when_ 0 2, OUT_OF_RANGE),
    (d.testBusy mask when_, BUSY)]

/-- DIAG_TONES (R150, R286). -/
def checkDiagTones (d : Dev) (mask when_ flo fhi : Nat) (level : Int) (dur : Nat) : Option Nat :=
  firstFail [(d.namesPartner mask, NOT_PERMITTED),
    (badMask 48 mask || out when_ 0 2 || out flo 20 2000 || out fhi 2000 20000 || outI level (-15360) (-2560)
      || out dur 10 1000, OUT_OF_RANGE),
    (d.testBusy mask when_, BUSY)]

/-- ACOUSTIC (R150, R286). -/
def checkAcoustic (d : Dev) (mask mics stim when_ : Nat) (level : Int) : Option Nat :=
  firstFail [(d.namesPartner mask, NOT_PERMITTED),
    (badMask 48 mask || out stim 0 1 || out when_ 0 2 || outI level (-15360) (-1536)
      || mics &&& d.pdm.mask ≠ mics, OUT_OF_RANGE),
    (d.testBusy mask when_ || (List.range 48).any (fun n => (d.chan n).diag.ph ≠ .idle && (d.chan n).diag.kind = 4), BUSY)]

/-- The parameters that a test command gives its channels; DIAG_RUN always uses the reset values (R287). -/
def Cmd.testOf : Cmd → Option (Diag → Diag)
  | .diagRun _ test w => some (fun t => { t with kind := 1, test := test, when_ := w, flo := 400, fhi := 12000,
                                                 level := -7680, dur := 100 })
  | .diagTones _ w flo fhi level dur => some (fun t => { t with kind := 2, test := 0, when_ := w, flo := flo, fhi := fhi,
                                                                level := level, dur := dur })
  | .acoustic _ mics stim w level => some (fun t => { t with kind := 4, test := 0, when_ := w, mics := mics, stim := stim,
                                                             level := level })
  | _ => none

/-- A test command is accepted: its channels take their reservation and wait for the schedule start (R285). -/
def Dev.acceptTest (d : Dev) (tag : Nat) (c : Cmd) : Dev :=
  match Cmd.testOf c with
  | none => d
  | some f =>
    (d.forEach (chList (Cmd.chmask c)) (fun n d => d.updDiag n (fun t =>
      f { t with ph := .wait, tag := tag, window := false, since := d.sys.uptime, lead := 0, shift := 0, disturbed := 0,
                 dirty := false, waitAt := none, judged := 0, acc := [], pos := none, outAt := none, failed := false,
                 gone := false, shut := none, muteSet := false, wasOff := false, probeV := 0 }))).updTag tag (fun t => { t with waits := Cmd.chmask c })

/-! ### Start and end of a channel's test (R287) -/

/-- The user mute of a test, with a 2 ms ramp (R151, R297). -/
def Dev.testMute (d : Dev) (n : Nat) : Dev :=
  let S := (d.dom (d.clk (d.chan n).dom)).blk
  d.updChan n (fun c => { c with diag := { c.diag with muted := c.mute, muteSet := true }, mute := true,
                                 muteR := if c.mute then c.muteR else c.muteR.go 0 (3 * S) true 0 })

/-- A CH_MUTE release that waited for the end of a test's mute applies: its LT is that of the first unmuted sample
(R162). -/
def Dev.releaseDone (d : Dev) (n tag : Nat) : Dev :=
  let r := (d.chan n).dom
  let d := if d.renders r then
      d.updTag tag (fun g => { g with done := g.done.filter (fun e => e.1 ≠ r) ++ [(r, (d.dom r).nextBlk)] })
    else d
  d.waitDone tag n

/-- The mute state before the test is restored. -/
def Dev.testUnmute (d : Dev) (n : Nat) : Dev :=
  let S := (d.dom (d.clk (d.chan n).dom)).blk
  let l := (d.chan n).diag.relTags
  let d := d.updChan n (fun c =>
    if !c.diag.muteSet then c
    else { c with diag := { c.diag with muteSet := false, relTags := [] }, mute := c.diag.muted,
                  muteR := if c.diag.muted then c.muteR else c.muteR.go 1 (3 * S) true 0 })
  d.forEach l (fun g d => d.releaseDone n g)

/-- Freeze or release the DC-blocking stages of a channel (R234, R287). -/
def Dev.freezeDc (d : Dev) (n : Nat) (on : Bool) : Dev :=
  d.forEach (sense n) (fun c d => d.updChain c (fun x => { x with intFreeze := on }))

/-- A channel's test starts: mute, soft start of a DISABLED channel, freeze of both chains, pilot suspended. -/
def Dev.testStart (d : Dev) (n : Nat) : Dev :=
  let c := d.chan n
  let off : Bool := c.st = .disabled
  let d := if c.diag.when_ ≠ 0 && !c.diag.muteSet then d.testMute n else d
  let d := if off then d.forEach (d.mates n) (fun m d => d.start m false) else d
  let lead := (if c.diag.when_ ≠ 0 then 2000 else 0) + (if off then 10000 + (if c.firstId then 20000 else 0) else 0)
  let d := d.updDiag n (fun t => { t with
    ph := .run, window := false, since := d.sys.uptime, lead := lead, wasOff := off,
    startLt := d.cmLt, tcoil := roundI (c.prot.tc * 10), pilBad := true, pos := none })
  d.freezeDc n true

/-- The next output of an acoustic measurement starts (R300). -/
def Dev.acousticNext (d : Dev) : Dev :=
  match d.acou.queue with
  | [] => d
  | n :: t => ({ d with acou := { d.acou with queue := t } }).testStart n

/-- The channels of a test command start together, those of ACOUSTIC one at a time; all are muted first (R287, R300). -/
def Dev.testsStart (d : Dev) (l : List Nat) : Dev :=
  match l with
  | [] => d
  | n :: _ =>
    let t := (d.chan n).diag
    if t.kind = 4 then
      let d := if t.when_ = 0 then d else d.forEach l (fun m d => d.testMute m)
      let idle : Bool := d.acou.queue.isEmpty && !(List.range 48).any (fun m => (d.chan m).diag.ph = .run && (d.chan m).diag.kind = 4)
      let d := { d with acou := { d.acou with queue := d.acou.queue ++ l } }
      if idle then d.acousticNext else d
    else d.forEach l (fun m d => d.testStart m)

/-- The effect of a test command on the channels of a mask at the schedule start: with WHEN = 1 they wait for a window.
DIAG_TONES sets EXPERT, DIAG_RUN returns to BASIC (R133, R150; log entry 24). -/
def applyTest (d : Dev) (mask when_ : Nat) : Dev :=
  let d := d.forEach (chList mask) (fun n d => d.updDiag n (fun t =>
    { t with expert := if t.kind = 4 then t.expert else t.kind = 2 }))
  if when_ = 1 then d.forEach (chList mask) (fun n d => d.updDiag n (fun t => { t with window := true }))
  else d.testsStart (chList mask)

/-- A channel is released by its test: freeze released, a soft stop for one that was DISABLED. -/
def Dev.testRelease (d : Dev) (n : Nat) : Dev :=
  let d := d.freezeDc n false
  let t := (d.chan n).diag
  let d := if t.wasOff && !(d.chan n).enabled then
      d.forEach (d.mates n) (fun m d =>
        let st := (d.chan m).st
        if st = .latched || st = .disabled then d
        else if st.on then d.enter m .softStop
        else (d.updFlt m (fun f => { f with retryAt := none })).enter m .disabled)
    else d
  let d := d.updDiag n (fun t => { t with ph := .idle, window := false, wasOff := false, waitAt := none, outAt := none })
  { d with acou := { d.acou with queue := d.acou.queue.filter (· ≠ n) } }

/-- A channel's test has ended: its mute is restored and it is released. -/
def Dev.testOff (d : Dev) (n : Nat) : Dev := (d.testUnmute n).testRelease n

/-- Release every channel whose test command has ended without it (cancelled or discarded). -/
def Dev.testSweep (d : Dev) : Dev :=
  d.forEach (List.range 48) (fun n d =>
    let t := (d.chan n).diag
    if t.ph ≠ .idle && t.outAt.isNone && (d.tag t.tag).st ≠ .active then d.testOff n else d)

/-- A processor restart ends the tests that run or wait for a window: a running stimulus ramps out over 5 ms, and the mutes
are restored after the restart (R16, R121, R301). -/
def Dev.testsEnd (d : Dev) : Dev :=
  let d := { d with acou := { d.acou with queue := [] } }
  d.forEach (List.range 48) (fun n d =>
    let t := (d.chan n).diag
    if t.ph = .idle || ((d.tag t.tag).ph = .sched && (d.tag t.tag).atLt) then d
    else if t.ph = .run then d.updDiag n (fun t => { t with outAt := some (t.outAt.getD d.sys.uptime) })
    else d.testRelease n)

/-- A stimulus that ramps out has done so: its channel is released (R301). -/
def Dev.testFaded (d : Dev) (n : Nat) : Dev :=
  match (d.chan n).diag.outAt with
  | none => d
  | some a =>
    if d.sys.uptime < a + 5000 then d
    else
      let d := d.testRelease n
      if d.sys.ready then d.testUnmute n else d

/-- The mutes of tests that a restart has ended are restored once the processor is back (R301). -/
def Dev.testsBack (d : Dev) : Dev :=
  d.forEach (List.range 48) (fun n d =>
    let t := (d.chan n).diag
    if t.muteSet && t.ph = .idle then d.testUnmute n else d)

/-! ### Classing (R290, R291) -/

/-- Square of a magnitude given by parts. -/
def sq (re im : Int) : Int := re * re + im * im

/-- The class by the first row of R290 that holds. `ac` and `dc` tell what was measured, `znom` and `rs` are in mΩ; a
magnitude above 500 Ω is taken from voltage over current, where the parts saturate (log entry 27). -/
def classOf (m : DiagMeas) (ac dc : Bool) (znom rs : Nat) (ref : Nat) : Nat :=
  let z := znom / 10
  let lo := sq m.zloRe m.zloIm
  let hi := sq m.zhiRe m.zhiIm
  let above := fun (v i : Nat) => decide (50 * i < v)
  let rOpen : Bool := m.rdc.isNone
  let r := m.rdc.getD 0
  let short : Bool := (dc && !rOpen && decide (r < rs)) || (ac && decide (lo * 100 < (rs : Int) * rs))
  let opened : Bool := if ac then (!dc || rOpen) && above m.vlo m.ilo && above m.vhi m.ihi else rOpen
  let rBad : Bool := dc && (rOpen || decide (r * 10 < 4 * znom) || decide (2 * znom < r))
  let zBad : Bool := decide (4 * lo < (z : Int) * z) || decide (16 * (z : Int) * z < lo)
  let apart : Bool := dc && !rOpen && decide ((r : Int) < 4 * ((m.zloRe * 10 - r).natAbs : Int))
  if short then 4
  else if opened then 3
  else if ac then
    if zBad || rBad || apart then 5
    else if (m.zhiIm < 0 || (decide (0 < m.zhiRe) && decide (3 * m.zhiIm * m.zhiIm < m.zhiRe * m.zhiRe)))
      && decide (hi < 4 * (z : Int) * z) then 1
    else if ref = 1 then 2 else 0
  else if rBad then 5 else 0xFE

/-- DCLASS takes a class; a change is an event with its Mordant record (R294). -/
def Dev.setClass (d : Dev) (n cls : Nat) : Dev :=
  let old := (d.chan n).diag.dclass
  let d := d.updDiag n (fun t => { t with dclass := cls })
  if old = cls then d else d.chEvent n 0x0602 (old + 256 * cls) 0

/-- The reference class follows a DIAG_RUN result (R291). -/
def Dev.setRef (d : Dev) (n cls : Nat) : Dev :=
  let ref := Tab.get 255 d.nvm.refClass n
  if cls = 1 || (cls = 0 && ref = 255) then { d with nvm := { d.nvm with refClass := Tab.set d.nvm.refClass n cls } } else d

/-! ### Records (R151, R293, R295) -/

/-- A part of an impedance in 10 mΩ, saturated to 16 bits. -/
def part16 (v : Int) : List Nat := le 2 (twos 16 (clampInt (-32768) 32767 v))

/-- The 16-byte record of R151. -/
def testRec (cls flags : Nat) (m : DiagMeas) : List Nat :=
  let z := fun (on : Bool) (re im : Int) => if on then part16 re ++ part16 im else le 4 0
  [cls, flags, 0, 0] ++ z (bit flags 0) m.zloRe m.zloIm ++ z (bit flags 0) m.zhiRe m.zhiIm
    ++ le 4 (if bit flags 1 then m.rdc.getD 0xFFFFFFFF else 0)

/-- DETAIL of KIND 0x01 and 0x02. -/
def testDetail (t : Diag) (m : DiagMeas) (ref : Nat) : List Nat :=
  le 4 m.vlo ++ le 4 m.ilo ++ le 4 m.vhi ++ le 4 m.ihi ++ le 4 (twos 32 m.vdc) ++ le 4 (twos 32 m.idc)
    ++ le 2 (twos 16 t.tcoil) ++ [ref % 256] ++ List.replicate 5 0

/-- Write bytes into a command's result buffer, through its tag's stream (R53, R56). -/
def Dev.writeOut (d : Dev) (tag off : Nat) (bytes : List Nat) : Dev :=
  match (d.tag tag).hdr with
  | none => d
  | some h => if h.outlen = 0 then d else d.outWrite tag (h.out + off) bytes

/-- A MEAS record, where a ring is bound. -/
def Dev.measRecord (d : Dev) (kind n tag lt : Nat) (rec detail : List Nat) : Dev :=
  match d.acou.ring with
  | none => d
  | some k =>
    let bytes := [kind, n] ++ le 2 tag ++ le 4 d.acou.seq ++ le 8 lt ++ rec ++ detail
    ({ d with acou := { d.acou with seq := (d.acou.seq + 1) % 2 ^ 32 } }).record k bytes

/-- One channel of a test command has its result: records written, the channel released, its RESULT bits kept; with the
last one the command is DONE and DIAG_DONE is raised (R151, R293, R294). -/
def Dev.testResult (d : Dev) (n cls : Nat) (marked : Bool) (rec detail : List Nat) : Dev :=
  let t := (d.chan n).diag
  let d := (d.writeOut t.tag (16 * n) rec).measRecord t.kind n t.tag t.startLt rec detail
  let d := d.testOff n
  let d := d.updTag t.tag (fun g => { g with
    result := (g.result ||| (if marked then 2 ^ n else 0)) + (if cls = 0xFF then 0 else 2 ^ 48),
    rstatus := if cls = 0xFF && !t.gone then HW_FAULT else g.rstatus })
  let d := d.waitDone t.tag n
  if (d.tag t.tag).st = .done then d.raise 0x0601 t.tag (d.tag t.tag).result else d

/-! ### Disturbed windows (R289) -/

/-- The cause of a disturbance is present: the emergency layer below unity, or a hold. -/
def Dev.disturbs (d : Dev) (n : Nat) : Bool := decide (d.emg.value d.sys.uptime < 1) || d.held n

/-- A demodulated voltage in µV lies more than 1.0 dB from the commanded level, which VMAX_eff limits (R284, R289). -/
def levelOff (level : Int) (vmax : Rat) (uv : Nat) : Bool :=
  let v := stimLevel (dbGain (level : Rat)) vmax * 1000000
  decide ((uv : Rat) < v * dbGain (-256)) || decide (v * dbGain 256 < (uv : Rat))

/-- The window under way is measured again from now, or, where the cause lasts, once it has cleared. -/
def Diag.again (t : Diag) (now : Nat) (wait : Bool) : Diag :=
  match t.windows[t.judged]? with
  | none => t
  | some w => { t with dirty := false, disturbed := 1, pos := none, acc := setWin t.acc t.judged Demod.reset,
                       shift := now - (t.since + t.lead + w.1), waitAt := if wait then some now else none }

/-- The wait of a disturbed window ends: the schedule goes on from where it stood. -/
def Diag.resume (t : Diag) (now : Nat) : Diag :=
  { t with waitAt := none, pos := none, shift := t.shift + (now - t.waitAt.getD now) }

/-- Follow a running test's windows at an instant: mark a disturbed tone window; once its last sample has come, it stands
measured, or is measured again when the cause is gone; a second disturbed window ends the test (log entry 71). -/
def Dev.testWatch (d : Dev) (n : Nat) : Dev :=
  let t := (d.chan n).diag
  let now := d.sys.uptime
  if t.ph ≠ .run ∨ t.kind = 4 ∨ t.outAt.isSome then d.testFaded n
  else if t.waitAt.isSome then (if d.disturbs n then d else d.updDiag n (fun t => t.resume now))
  else match t.time now, t.windows[t.judged]? with
    | some x, some w =>
      if x < w.2.1 + measureDelay then
        if w.2.2 ≠ 0 && decide (w.1 ≤ x ∧ x < w.2.1) && d.disturbs n then d.updDiag n (fun t => { t with dirty := true }) else d
      else
        let bad : Bool := t.dirty || (w.2.2 ≠ 0 && levelOff t.level (d.vmax n) (t.win t.judged).uv)
        if !bad then d.updDiag n (fun t => { t with judged := t.judged + 1 })
        else if t.disturbed = 0 then d.updDiag n (fun t => t.again now (d.disturbs n))
        else d.updDiag n (fun t => { t with disturbed := 2, dirty := false, failed := true })
    | _, _ => d

/-- Follow every running test. -/
def Dev.testsWatch (d : Dev) : Dev := d.forEach (List.range 48) (fun n d => d.testWatch n)

/-- DISTURBANCE_WAIT_EXPIRY: the wait has lasted 1 s: the window is measured again whether or not the cause has cleared. -/
def execDisturbanceWaitExpiry (n : Nat) (s : State) : Host.Outcome State Fault Refusal :=
  .next (s.onLive (fun d =>
    match (d.chan n).diag.waitAt with
    | some a => if d.sys.uptime < a + 1000000 then d else d.updDiag n (fun t => t.resume d.sys.uptime)
    | none => d))

/-! ### End of an electrical test (R292) -/

/-- DIAG_TEST_END: the stimulus of channel `n` has run its schedule, or the test has failed: the channel is classed from
what its windows demodulated, its records are written and it is released (R287–R294). -/
def execDiagTestEnd (n : Nat) (_meas : Own) (s : State) : Host.Outcome State Fault Refusal :=
  .next (s.onLive (fun d =>
    let c := d.chan n
    let t := c.diag
    let x := t.time d.sys.uptime
    let down : Bool := !c.st.on && x.isSome
    let all : Bool := t.judged = t.windows.length
    let ended : Bool := match x with
      | some x => decide (t.length ≤ x) && t.waitAt.isNone && all
      | none => false
    if 48 ≤ n ∨ t.ph ≠ .run ∨ t.kind = 4 ∨ t.outAt.isSome ∨ !(t.failed || t.gone || t.shut.isSome || down || ended) then d
    else
      let m := t.meas
      let bad : Bool := t.failed || t.gone || t.shut.isSome || down || c.st ≠ .switching
      let short : Bool := match t.shut with | some f => decide (0x10 ≤ f ∧ f ≤ 0x12) && !t.gone | none => false
      let ref := Tab.get 255 d.nvm.refClass n
      let rs := if (d.pr (n / 2)).bridged then 500 else 1000
      let cls := if short then 4 else if bad then 0xFF else if t.kind = 2 then 0xFE
        else classOf m t.ac t.dc c.prot.pZ rs ref
      let flags := b2n (t.ac && all) + 2 * b2n (t.dc && decide (2 ≤ t.judged))
      let d := if t.kind = 1 && decide (cls ≤ 5) then (d.setClass n cls).setRef n cls else d
      d.testResult n cls (decide (2 ≤ cls ∧ cls ≤ 5)) (testRec cls flags m) (testDetail t m ref)))

/-! ### Acoustic verification (R300) -/

/-- ACOUSTIC_OUTPUT_DONE: stimulus and capture of output `n` have ended and its microphones are judged; the next output
follows. -/
def execAcousticOutputDone (n : Nat) (mics : List MicMeas) (s : State) : Host.Outcome State Fault Refusal :=
  .next (s.onLive (fun d =>
    let c := d.chan n
    let t := c.diag
    let down : Bool := c.st ≠ .switching
    let ended : Bool := match t.time d.sys.uptime with | some x => decide (t.length ≤ x) | none => false
    if 48 ≤ n ∨ t.ph ≠ .run ∨ t.kind ≠ 4 ∨ t.outAt.isSome
        ∨ !(t.failed || t.gone || t.shut.isSome || (!c.st.on && (t.time d.sys.uptime).isSome) || ended) then d
    else
      let bad : Bool := t.failed || t.gone || t.shut.isSome || down
      let heard := mics.filter (fun m => bit t.mics m.mic)
      let usable := heard.filter (fun m => !(d.mic m.mic).faulty && decide (m.noise < -500))
      let found := usable.filter (fun m => decide (100 ≤ m.snr))
      let dead : Bool := !bad && !usable.isEmpty && found.isEmpty
      let flags := if bad then 0 else 4 * b2n (!usable.isEmpty) + 8 * b2n dead
      let cls := if bad then 0xFF else t.dclass
      let best := usable.foldl (fun (b : Option MicMeas) m =>
        match b with | some x => if x.snr < m.snr then some m else b | none => some m) none
      let x := best.getD ⟨0, 0, 0, 0, 0⟩
      let detail := le 4 (listMask (found.map (·.mic))) ++ [x.mic % 256, 0] ++ le 2 (twos 16 x.snr) ++ le 4 x.arrival
        ++ le 2 (twos 16 x.level) ++ List.replicate 18 0
      let none_ : DiagMeas := ⟨0, 0, 0, 0, some 0, 0, 0, 0, 0, 0, 0⟩
      let rcd := testRec cls flags none_
      let d := d.testResult n (if bad then 0xFF else 0) dead rcd detail
      d.acousticNext))

/-! ### Quiet windows (R296, R297) -/

/-- QUIET_WINDOWS (R150). -/
def checkQuietWindows (_d : Dev) (n : Nat) (wins : List QWin) : Option Nat :=
  firstFail [(out n 0 8 || wins.any (fun w => out w.dur 100 60000), OUT_OF_RANGE)]

/-- Length in ms of what a waiting channel's command needs of a window (R296): its schedule with the mute, or the sum
over an ACOUSTIC command's outputs, with the soft starts and identifications of R287. -/
def Dev.needOf (d : Dev) (n : Nat) : Nat :=
  let t := (d.chan n).diag
  let l := (List.range 48).filter (fun m => (d.chan m).diag.ph ≠ .idle && (d.chan m).diag.tag = t.tag)
  let add := fun (m : Nat) => let c := d.chan m
    if c.st = .disabled then 10000 + (if c.firstId then 20000 else 0) else 0
  if t.kind = 4 then (l.map (fun m => t.length + add m)).sum
  else if t.kind = 2 then 40000 + 2000 * t.dur + (l.map add).foldl max 0
  else 2000 + t.length + (l.map add).foldl max 0

/-- A waiting test fits a window. -/
def Dev.fits (d : Dev) (n : Nat) (w : QWin) : Bool := decide (d.needOf n ≤ 1000 * w.dur)

/-- Channels that wait for a window. -/
def Dev.waiting (d : Dev) : List Nat :=
  (List.range 48).filter (fun n => (d.chan n).diag.ph = .wait && (d.chan n).diag.window)

/-- How far back a window's last opening lies, in positions of the clock master. -/
def Dev.winGone (d : Dev) (w : QWin) : Nat :=
  let m := d.dom (d.clk d.tb.master)
  let since := (d.pos d.tb.master + m.cycle - m.posOfLt w.start % m.cycle) % m.cycle
  if w.period = 0 then since else since % (w.period * m.perFrame)

/-- The window is open by the clock-master line-time: START, or a repeat every PERIOD frames, lies less than DUR back. -/
def Dev.winOpenNow (d : Dev) (w : QWin) : Bool :=
  let m := d.dom (d.clk d.tb.master)
  let p := d.pos d.tb.master
  let p0 := m.posOfLt w.start % m.cycle
  let since := (p + m.cycle - p0) % m.cycle
  m.st ≠ .disabled && (since = 0 || !m.isFuture p p0)
    && decide ((d.winGone w : Rat) < m.nominal * 1000 * (w.dur : Rat))

/-- The windows of a set whose opening lies behind already: they admit tests from their next opening on (R296). -/
def Dev.opened (d : Dev) (wins : List QWin) : Nat :=
  listMask ((List.range wins.length).filter (fun k =>
    match wins[k]? with | some w => d.winOpenNow w && d.winGone w ≠ 0 | none => false))

/-- QUIET_WINDOWS: the new set; a waiting test that no window can admit ends with CANCELLED (R297). -/
def applyQuietWindows (d : Dev) (wins : List QWin) : Dev :=
  let d := { d with acou := { d.acou with wins := wins, winOpen := d.opened wins } }
  let l := d.waiting.filter (fun n => !wins.any (d.fits n))
  let tags := (l.map (fun n => (d.chan n).diag.tag)).eraseDups
  (d.forEach tags (fun t d => d.fail t CANCELLED)).testSweep

/-- QUIET_WINDOW_OPEN: a window's opening has come: the tests that fit it mute their channels and run; during a processor
restart it is skipped (R297). -/
def execQuietWindowOpen (k : Nat) (s : State) : Host.Outcome State Fault Refusal :=
  .next (s.onLive (fun d =>
    match d.acou.wins[k]? with
    | none => d
    | some w =>
      if bit d.acou.winOpen k ∨ !d.winOpenNow w then d
      else
        let l := if d.sys.ready then d.waiting.filter (fun n => d.fits n w) else []
        let d := { d with acou := { d.acou with winOpen := d.acou.winOpen ||| 2 ^ k } }
        let tags := (l.map (fun n => (d.chan n).diag.tag)).eraseDups
        d.forEach tags (fun t d =>
          let d := d.updTag t (fun g => { g with ph := .long, done := [(d.tb.master, d.scNow d.tb.master)] })
          d.testsStart (l.filter (fun n => (d.chan n).diag.tag = t)))))

/-- QUIET_WINDOW_CLOSE: the mute states of the window's tests are restored at the latest now (R297). -/
def execQuietWindowClose (k : Nat) (s : State) : Host.Outcome State Fault Refusal :=
  .next (s.onLive (fun d =>
    match d.acou.wins[k]? with
    | none => d
    | some w =>
      if !bit d.acou.winOpen k ∨ d.winOpenNow w then d
      else
        let d := { d with acou := { d.acou with winOpen := d.acou.winOpen - 2 ^ k } }
        if d.acou.winOpen ≠ 0 then d
        else d.forEach (List.range 48) (fun n d =>
          if (d.chan n).diag.ph ≠ .idle && (d.chan n).diag.when_ = 1 then d.testUnmute n else d)))

/-- MEAS_BIND: a RUNNING MEAS ring of the sender, or none (R150). -/
def checkMeasBind (d : Dev) (sender k : Nat) : Option Nat :=
  firstFail [(decide (k < 4096) && (d.ring k).st ≠ .disabled && (d.ring k).owner ≠ fnOf sender, NOT_PERMITTED),
    (k ≠ 0xFFFF && decide (4096 ≤ k), OUT_OF_RANGE), (k ≠ 0xFFFF && !d.ringFor (fnOf sender) k 10, BUSY)]

/-- MEAS_BIND's effect. -/
def applyMeasBind (d : Dev) (k : Nat) : Dev := { d with acou := { d.acou with ring := if k = 0xFFFF then none else some k } }

/-! ### Pilot (R298, R299) -/

/-- PILOT (R150, R225). -/
def checkPilot (d : Dev) (mask en freq : Nat) (level : Int) : Option Nat :=
  firstFail [(d.namesPartner mask, NOT_PERMITTED),
    (badMask 48 mask || out en 0 1 || out freq 80 400 || outI level (-15360) (-7680), OUT_OF_RANGE)]

/-- The pilot plays: SWITCHING and not under test (R287, R298). -/
def Chan.pilotOn (c : Chan) : Bool := c.st = .switching && c.diag.ph ≠ .run

/-- PLT_STAT.RUN. -/
def Chan.pilotRun (c : Chan) : Bool := c.pilotOn && (c.diag.pilEn || !c.diag.pilR.still)

/-- The pilot of a channel is heard: its domain renders, and it plays. -/
def Dev.pilotHeard (d : Dev) (n : Nat) : Bool := d.renders (d.chan n).dom && (d.chan n).pilotRun

/-- PILOT: the sine starts or stops with a 100 ms raised-cosine ramp at the command's boundary; a new window begins
(R298). With EN = 0 the command disables the pilot and waits for the end of that ramp (R123; log entry 67). -/
def applyPilot (d : Dev) (tag mask en freq : Nat) (level : Int) : Dev :=
  let l := if en = 0 then (chList mask).filter d.pilotHeard else []
  let d := if en = 0 then d.updTag tag (fun t => { t with ph := .ending, waits := t.waits ||| listMask l }) else d
  d.forEach (chList mask) (fun n d =>
    let fs := (d.dom (d.clk (d.chan n).dom)).fs
    let now := d.sys.uptime
    let lt := d.cmLt
    let heard := l.contains n
    d.updDiag n (fun t =>
      let t := { t with pilEn := en = 1, pilR := t.pilR.go (if en = 1 then 1 else 0) (fs / 10) true 0, pilAt := now, pilAcc := [], pilLt := lt,
                        pilTags := if heard then t.pilTags ++ [tag] else t.pilTags }
      if en = 1 then { t with pilFreq := freq, pilLevel := level, pilBad := !d.tapValid n 3 } else t))

/-- At the end of a block, disables of a pilot that is silent have it (R123 step 5). -/
def Dev.pilotEnd (d : Dev) (n : Nat) : Dev :=
  let c := d.chan n
  if c.diag.pilTags.isEmpty || (c.pilotOn && !c.diag.pilR.still) then d
  else (d.updDiag n (fun t => { t with pilTags := [] })).forEach c.diag.pilTags (fun g d => d.waitDone g n)

/-- A magnitude in Ω as 1/256 Ω, unsigned and saturated. -/
def sat256 (x : Rat) : Nat := (clampInt 0 65535 (roundI (x * 256))).toNat

/-- A part in mΩ, signed in 32 bits and saturated (R295). -/
def part32 (x : Rat) : List Nat := le 4 (twos 32 (clampInt (-2147483648) 2147483647 (roundI (x * 1000))))

/-- The next pilot window of a channel begins: its first SURVEY sample is the next one. -/
def Dev.pilotNext (d : Dev) (n : Nat) (f : Diag → Diag) : Dev :=
  let bad := !d.tapValid n 3
  let at_ := d.sys.uptime - surveyDelay
  let lt := d.cmLt
  d.updDiag n (fun t => { f t with pilAt := at_, pilLt := lt, pilBad := bad, pilAcc := [] })

/-- PILOT_WINDOW_END: the SURVEY samples of a pilot window of channel `n` have come (R298): it is discarded where it overlaps
a test or a DSYNC reset or the pilot has paused; incoherent; or coherent, with registers, MEAS record, limits and
coil-resistance window. -/
def execPilotWindowEnd (n : Nat) (_meas : Own) (s : State) : Host.Outcome State Fault Refusal :=
  .next (s.onLive (fun d =>
    let c := d.chan n
    let t := c.diag
    if 48 ≤ n ∨ !t.pilEn ∨ !c.pilotOn ∨ d.sys.uptime < t.pilAt + surveyDelay + t.pilLen then d
    else if t.pilBad then d.pilotNext n (fun t => { t with age := satInc 255 t.age })
    else
      let a := (t.pilAcc[0]?).getD Demod.reset
      let b := (t.pilAcc[1]?).getD Demod.reset
      let w := a.join b
      let q := w.imp
      let ok := coherent a.imp b.imp
      let mag := sqrtQ (q.1 * q.1 + q.2 * q.2)
      let z := sat256 mag
      let d := if !ok then d.pilotNext n (fun t => { t with incoh := true, age := satInc 255 t.age })
        else d.pilotNext n (fun t =>
          { t with zre := sat256 q.1, zim := twos 16 (clampInt (-32768) 32767 (roundI (q.2 * 256))), zmag := z,
                   phase := twos 16 (roundI (argDeg q.1 q.2 * 100)), valid := true, incoh := false,
                   below := decide (z < t.wlo), above := t.whi ≠ 0 && decide (t.whi < z), age := 0,
                   count := (t.count + 1) % 65536 })
      let out : Bool := ok && (decide (z < t.wlo) || (t.whi ≠ 0 && decide (t.whi < z)))
      let d := if out then d.setClass n 5 else d
      let d := if ok then d.pilotWindow n q.1 ((t.pilFreq : Rat) / 10) else d
      let p := (d.chan n).prot
      let fused : Bool := ok && bit p.const.flags 1 && bit p.const.flags 2 && p.rejects = c.prot.rejects
      let rcd := le 2 t.pilFreq ++ le 2 (b2n ok + 2 * b2n (!ok)) ++ part32 q.1 ++ part32 q.2
        ++ le 4 (if fused then p.rmeas else 0)
      d.measRecord 3 n 0xFFFF t.pilLt rcd
        (le 2 (pilotCycles t.pilFreq) ++ [0, 0] ++ le 4 w.uv ++ le 4 w.ua ++ List.replicate 20 0)))

/-- AB1600-layout pilot register `k` (0 Z, 1 MAG, 2 STAT, 3 WIN) of a channel (R299). -/
def Chan.pltReg (c : Chan) (k : Nat) : Nat :=
  let t := c.diag
  match k with
  | 0 => t.zre + 65536 * t.zim
  | 1 => t.zmag + 65536 * t.phase
  | 2 => b2n (t.valid && c.st ≠ .latched) + 2 * b2n c.pilotRun + 4 * b2n t.incoh + 8 * b2n t.below + 16 * b2n t.above
      + 256 * t.age + 65536 * t.count
  | _ => t.wlo + 65536 * t.whi

end Sys2Proof.Machine
end

