-- ==== Sys2Proof/Machine/ChannelCmd.lean ====
section
/-! DEFINITION. The channel commands (R141, R142, R206–R226): enabling and disabling, volume, mute, bridging, loop
coefficients, carrier, zero-crossing timeout. -/

namespace Sys2Proof.Machine

/-- CH_ENABLE (R141, R183, R225, R287). -/
def checkChEnable (d : Dev) (mask en dom : Nat) : Option Nat :=
  let l := chList mask
  firstFail [(d.namesPartner mask, NOT_PERMITTED), (badMask 48 mask || out en 0 1 || out dom 0 3, OUT_OF_RANGE),
    (en = 1 && (l.any (fun n =>
        let c := d.chan n
        (c.st ≠ .disabled && c.st ≠ .latched && c.dom ≠ dom) || (c.enabled && c.dom ≠ dom) || (c.diag.ph = .run && !c.enabled)) || d.overCap (.chEnable mask en dom)), BUSY),
    (en = 1 && l.any (fun n => (d.chan n).st = .latched), HW_FAULT)]

/-- CH_ENABLE with EN = 1 on one channel, from sample `s` of the domain: enabled in its domain; a DISABLED one starts, its
drive opens 480 single-rate samples later, or 1,440 with an identification, and the command waits for an identification
that is due (R141, R220, R221). -/
def Dev.enableChan (d : Dev) (tag dom n s : Nat) : Dev :=
  let was := (d.chan n).st
  let d := d.updChan n (fun c => { c with enabled := true, off := false, dom := dom })
  if was ≠ .disabled then d
  else
    let S := (d.dom (d.clk dom)).blk
    let d := ((d.start n false).updChan n (fun c => { c with driveAt := some (s + (if c.firstId then 45 else 15) * S) })).retarget 2
    let c := d.chan n
    if c.st = .softStart && c.firstId then
      (d.updChan n (fun c => { c with idTag := some tag })).updTag tag (fun t => { t with waits := t.waits ||| 2 ^ n })
    else d

/-- CH_ENABLE with EN = 1 at its effective sample `s`. -/
def applyChOn (d : Dev) (tag mask dom s : Nat) : Dev := d.forEach (d.withMates mask) (fun n d => d.enableChan tag dom n s)

/-- CH_ENABLE with EN = 0 at its effective sample: R123 from step 2; a running test of the channel is abandoned (R301). -/
def applyChOff (d : Dev) (tag mask : Nat) : Dev :=
  let l := d.withMates mask
  let d := d.forEach l (fun n d => d.updDiag n (fun t => { t with gone := t.gone || t.ph = .run }))
  let d := d.updTag tag (fun t => { t with ph := .ending, waits := t.waits ||| listMask l })
  d.forEach l (fun n d => d.stopChan tag n true)

/-- CH_VOLUME (R141, R225): −120.0 to +12.0 dB. -/
def checkChVolume (d : Dev) (mask : Nat) (vol : Int) (ramp : Nat) : Option Nat :=
  firstFail [(d.namesPartner mask, NOT_PERMITTED),
    (badMask 48 mask || outI vol (-30720) 3072 || out ramp 0 1000, OUT_OF_RANGE)]

/-- CH_VOLUME: linear in dB over RAMP ms (R222). -/
def applyChVolume (d : Dev) (mask : Nat) (vol : Int) (ramp : Nat) : Dev :=
  d.forEach (chList mask) (fun n d =>
    let fs := (d.dom (d.clk (d.chan n).dom)).fs
    d.updChan n (fun c => { c with vol := vol, volR := d.rampTo c.dom c.volR (vol : Rat) (ramp * fs / 1000) false 0 }))

/-- CH_MUTE (R141, R225). -/
def checkChMute (d : Dev) (mask mute ramp : Nat) : Option Nat :=
  firstFail [(d.namesPartner mask, NOT_PERMITTED), (badMask 48 mask || out mute 0 1 || out ramp 0 1000, OUT_OF_RANGE)]

/-- CH_MUTE from its effective sample, `skip` samples into the coming block: raised cosine over RAMP tenths of a ms
(R222). While a test holds the user mute, the state it restores changes instead, and a release completes with the test's
mute (R162; log entry 31). -/
def applyChMute (d : Dev) (tag mask mute ramp skip : Nat) : Dev :=
  d.forEach (chList mask) (fun n d =>
    let fs := (d.dom (d.clk (d.chan n).dom)).fs
    let c := d.chan n
    if !c.diag.muteSet then
      d.setChan n { c with mute := mute = 1, muteR := d.rampTo c.dom c.muteR (if mute = 1 then 0 else 1) (ramp * fs / 10000) true skip }
    else if mute = 1 then d.setChan n { c with diag := { c.diag with muted := true } }
    else
      (d.setChan n { c with diag := { c.diag with muted := false, relTags := c.diag.relTags ++ [tag] } }).updTag tag
        (fun t => { t with waits := t.waits ||| 2 ^ n }))

/-- Pairs whose bridging a CH_BRIDGE changes: PAIRS is the whole new set (log entry 10). -/
def Dev.bridgeChanges (d : Dev) (pairs : Nat) : List Nat :=
  (List.range 24).filter (fun p => (d.pr p).bridged ≠ bit pairs p)

/-- CH_BRIDGE (R141): both channels of each changed pair are disabled. -/
def checkChBridge (d : Dev) (pairs : Nat) : Option Nat :=
  firstFail [(decide (2 ^ 24 ≤ pairs), OUT_OF_RANGE),
    ((d.bridgeChanges pairs).any (fun p => (d.chan (2 * p)).st ≠ .disabled || (d.chan (2 * p + 1)).st ≠ .disabled), BUSY)]

/-- CH_BRIDGE: identification is due again for both channels and its results are cleared; contexts of a partner are held
parked (R163, R224–R226). -/
def applyChBridge (d : Dev) (pairs : Nat) : Dev :=
  d.forEach (d.bridgeChanges pairs) (fun p d =>
    let d := d.updPr p (fun x => { x with bridged := bit pairs p })
    d.forEach [2 * p, 2 * p + 1] (fun n d => d.updChan n (fun c => { c with firstId := true, f0 := 0, q := 0 })))

/-- CH_LOOP (R141, R214, R215). -/
def checkChLoop (d : Dev) (mask : Nat) (c : Coef) : Option Nat :=
  firstFail [(d.namesPartner mask, NOT_PERMITTED), (badMask 48 mask || coefBad c || !loopStable c, OUT_OF_RANGE)]

/-- CH_LOOP: the set applies at the next update; MOD_CLIP is cleared (R215, R413). -/
def applyChLoop (d : Dev) (mask : Nat) (k : Coef) : Dev :=
  d.forEach (d.withMates mask) (fun n d => d.updChan n (fun c =>
    { c with loopExpert := true, loop := { c.loop with coefNext := some k, coefSet := c.loop.coefSet || c.st = .disabled, modClip := 0,
                                                       coef := if c.st = .disabled then k else c.loop.coef } }))

/-- CH_CARRIER (R141): with PERIOD ≠ 0 no channel may be enabled. -/
def checkChCarrier (d : Dev) (mask period pmode : Nat) : Option Nat :=
  firstFail [(d.namesPartner mask, NOT_PERMITTED),
    (badMask 48 mask || (period ≠ 0 && out period 800 3200) || out pmode 0 1, OUT_OF_RANGE),
    (period ≠ 0 && (List.range 48).any (fun n => (d.chan n).enabled || (d.chan n).st ≠ .disabled), BUSY)]

/-- CH_CARRIER: offsets of the mask's channels, reached by slewing, and the device's carrier period (R209). -/
def applyChCarrier (d : Dev) (mask period pmode phase : Nat) : Dev :=
  let e := if period = 0 then d else { d with period := period }
  (e.forEach (chList mask) (fun n d => d.updChan n (fun c =>
    { c with loopExpert := true, loop := { c.loop with pmode := pmode, phase := phase } }))).slewFrom d
    (if period = 0 then chList mask else List.range 48)

/-- CH_ZCTO (R141). -/
def checkChZcto (d : Dev) (mask zcto : Nat) : Option Nat :=
  firstFail [(d.namesPartner mask, NOT_PERMITTED), (badMask 48 mask || out zcto 1 100, OUT_OF_RANGE)]

/-- CH_ZCTO. -/
def applyChZcto (d : Dev) (mask zcto : Nat) : Dev :=
  d.forEach (chList mask) (fun n d => d.updChan n (fun c => { c with zcto := zcto }))

/-- CH_STATUS (R141). -/
def checkChStatus (_d : Dev) (ch : Nat) : Option Nat := firstFail [(out ch 0 47, OUT_OF_RANGE)]

end Sys2Proof.Machine
end

