-- ==== Sys2Proof/Machine/Scene.lean ====
section
/-! DEFINITION. The scene update streams (R189–R205): update frames, anchors and deltas, the shadow bank and its switch,
SCENE_CONFIG. -/

namespace Sys2Proof.Machine

/-- Refresh period in force for a block of domain `r` (R202): that of the last SCENE_CONFIG due by then, else the
stream's. -/
def Dev.pAt (d : Dev) (r b : Nat) : Nat :=
  let aimed : Tag → Option Nat := fun t => match t.cmd with
    | some (.sceneConfig m e p _) => if m = r && e = 1 then some p else none
    | _ => none
  let l := d.tagsInOrder (fun t => t.st = .active && t.ph ≠ .waiting && (aimed t).isSome
    && t.effs.any (fun e => (d.dueAt t r b e).isSome))
  ((l.getLast?).bind (fun n => aimed (d.tag n))).getD (d.stream r).p

/-- The header of an update frame is malformed (R190, R191), where the stream's refresh period is `p`. -/
def Dev.badFrame (d : Dev) (r p : Nat) (b : List Nat) : Bool :=
  let s := d.stream r
  let esize := match s.ring with | some k => (d.ring k).esize | none => 0
  fld b 7 1 ≠ p || decide (fld b 7 1 ≤ fld b 6 1) || decide (336 < fld b 8 2) || fld b 10 2 % 4 ≠ 0
    || decide (esize < fld b 10 2 + 64) || decide (rateMod (d.dom (d.clk r)).rate ≤ fld b 0 4) || fld b 12 52 ≠ 0

/-- Change a stream's counters. -/
def Dev.countIn (d : Dev) (r : Nat) (f : Stream → Stream) : Dev := d.updStream r f

/-- A counter of R203 with one more. -/
def sat32 (n : Nat) : Nat := satInc (2 ^ 32 - 1) n

/-- A gain within R192's range, OFF apart (R197). -/
def clampGain (g : Int) : Int := if g = -32768 then g else clampInt (-30720) 3072 g
/-- A coordinate within 32 bits. -/
def clamp32 (v : Int) : Int := clampInt (-2147483648) 2147483647 v

/-- set_state of R196 and R197: clamped, counted once, into the shadow bank. -/
def Dev.setState (d : Dev) (r o : Nat) (x y z gain : Int) : Dev :=
  let u : Upd := { obj := o, x := clamp32 x, y := clamp32 y, z := clamp32 z, gain := clampGain gain, count := 1 }
  let cl : Bool := u.x ≠ x || u.y ≠ y || u.z ≠ z || u.gain ≠ gain
  d.updStream r (fun s =>
    let n := match s.shadow.find? (fun a => a.obj = o) with | some a => a.count | none => 0
    { s with shadow := s.shadow.filter (fun a => a.obj ≠ o) ++ [{ u with count := n + 1 }],
             clamped := if cl then sat32 s.clamped else s.clamped })

/-- A record that applies ends an object's staleness (R196). -/
def Dev.unstale (d : Dev) (o lt : Nat) : Dev :=
  if (d.obj o).stale then (d.updObj o (fun a => { a with stale := false })).raiseLt lt 0x0303 o 0 4 else d

/-- An anchor record (R194). -/
def Dev.anchor (d : Dev) (r lt seq : Nat) (b : List Nat) : Dev :=
  let o := fld b 1 1
  let n : Anchor := { gen := seq, x := fldS b 4 4, y := fldS b 8 4, z := fldS b 12 4 }
  let d := d.updStream r (fun s => if s.undo.any (fun e => e.1 = o) then s
    else { s with undo := (o, (d.obj o).prev, (d.obj o).cur) :: s.undo })
  let d := d.updObj o (fun a =>
    let same : Bool := match a.cur with | some c => c.gen = seq | none => false
    { a with prev := if same then a.prev else a.cur, cur := some n })
  (d.setState r o n.x n.y n.z (fldS b 2 2)).unstale o lt

/-- The held anchor of a generation (R195). -/
def Obj.anchorOf (a : Obj) (g : Nat) : Option Anchor :=
  match a.cur with
  | some c => if c.gen = g then some c else match a.prev with
    | some p => if p.gen = g then some p else none
    | none => none
  | none => none

/-- A delta record (R192, R195): applied against a held anchor, else rejected; the first rejection opens OBJ_STALE. -/
def Dev.delta (d : Dev) (r lt : Nat) (b : List Nat) : Dev :=
  let o := fld b 1 1
  let g := fld b 2 2
  let u : Int := if fld b 0 1 = 2 then 1 else 10
  match (d.obj o).anchorOf g with
  | some a => (d.setState r o (a.x + fldS b 4 2 * u) (a.y + fldS b 6 2 * u) (a.z + fldS b 8 2 * u) (fldS b 10 2)).unstale o lt
  | none =>
    let d := d.updStream r (fun s => { s with staleRej := sat32 s.staleRej })
    if (d.obj o).stale then d
    else ((d.updObj o (fun a => { a with stale := true })).raiseLt lt 0x0303 o g 1).mordant 0x0303 o 1 0 (le 8 g)

/-- The walk over the records of a frame (R193): `n` still to take, `b` the record area from the next one on. -/
def Dev.walkRecs (r lt seq : Nat) : Nat → List Nat → Dev → Dev
  | 0, _, d => d
  | n + 1, b, d =>
    let kind := fld b 0 1
    let size := if kind = 1 then 16 else 12
    if kind = 0 ∨ 3 < kind ∨ b.length < size then d.updStream r (fun s => { s with badRec := sat32 s.badRec })
    else
      let d :=
        if (d.obj (fld b 1 1)).dom ≠ r then d.updStream r (fun s => { s with foreign := sat32 s.foreign })
        else if kind = 1 then d.anchor r lt seq b else d.delta r lt b
      Dev.walkRecs r lt seq n (b.drop size) d

/-- The ring that the stream reads. -/
def Dev.sceneRing (d : Dev) (r : Nat) : Option Nat :=
  match (d.stream r).ring with
  | some k => if (d.stream r).en && (d.ring k).type = 3 && ((d.ring k).st = .running || (d.ring k).st = .stalled) then some k else none
  | none => none

/-- Frame `f` lies before the expected frame, modulo the frame count (R35, R199). -/
def Dev.lateFrame (d : Dev) (r f : Nat) : Bool :=
  let md := rateMod (d.dom (d.clk r)).rate
  decide (md / 2 ≤ (f + md - (d.stream r).expect) % md)

/-- The staging deadline of the expected frame, 3 blocks before the render start of its application block, has passed
(R198). -/
def Dev.pastStaging (d : Dev) (r : Nat) : Bool :=
  decide (d.appBlk r (d.stream r).expect < (d.dom r).nextBlk + 3 * (d.dom (d.clk r)).blk)

/-- The entry of the expected frame is in staging. -/
def Dev.frameStaged (d : Dev) (r : Nat) : Bool :=
  match d.sceneRing r with
  | some k => (d.ring k).staged.any (fun b => fld b 0 4 = (d.stream r).expect)
  | none => false

/-- During a restart the entry of a frame that is missed is passed, staged or not (R204). -/
def Dev.passMissed (d : Dev) (r : Nat) : Dev :=
  match d.sceneRing r with
  | none => d
  | some k =>
    let e := (d.stream r).expect
    if d.frameStaged r then d.updRing k (fun q => { q with staged := q.staged.filter (fun b => fld b 0 4 ≠ e) })
    else if (d.ring k).staged.isEmpty && (d.trn.readsOf k).isEmpty && decide (0 < (d.ring k).occ) then d.passEntry k
    else d

/-- The expected frame is missed where its deadline has passed without its entry in staging; while no processor parses
even with it (R199, R204). -/
def Dev.missOne (d : Dev) (r : Nat) : Dev :=
  let st := d.stream r
  if 4 ≤ r ∨ !st.en ∨ !d.renders r ∨ !d.pastStaging r ∨ (d.sys.ready && d.frameStaged r) then d
  else
    let d := if d.sys.ready then d else d.passMissed r
    d.updStream r (fun s => { s with expect := (s.expect + 1) % rateMod (d.dom (d.clk r)).rate, missed := sat32 s.missed })

/-- Every frame that has been missed by now is counted. -/
def Dev.sceneMiss (d : Dev) (r : Nat) : Dev := (List.range 8).foldl (fun d _ => d.missOne r) d

/-- The streams that read from ring `k` have counted what they missed before its next entry is staged (R199). -/
def Dev.sceneMissFor (d : Dev) (k : Nat) : Dev :=
  if (d.ring k).type = 3 then d.sceneMiss (d.ring k).domain else d

/-- SCENE_FRAME_PARSE: Ramcen parses the oldest entry of the stream that is in staging (R193, R199): a malformed one is
discarded, a late one dropped, the expected one resolved into the shadow bank, which switches at the application block or,
where less than a block is left to it, one block from now (R198; log entry 66); one for a later frame stays in staging. -/
def execSceneFrameParse (r : Nat) (_frame : Own) (s : State) : Host.Outcome State Fault Refusal :=
  .next (s.onLive (fun d =>
    if 4 ≤ r ∨ !d.sys.ready ∨ !(d.dom (d.clk r)).ltSet then d else
    let d := d.sceneMiss r
    match d.sceneRing r with
    | none => d
    | some k =>
      match (d.ring k).staged with
      | [] => d
      | b :: rest =>
        let st := d.stream r
        let f := fld b 0 4
        let at_ := d.appBlk r f
        let gone := d.updRing k (fun q => { q with staged := rest })
        if d.badFrame r (d.pAt r at_) b then (gone.countBad k).updStream r (fun s => { s with badFrame := sat32 s.badFrame })
        else if d.lateFrame r f then (gone.countBad k).updStream r (fun s => { s with lateDrop := sat32 s.lateDrop })
        else if f ≠ st.expect ∨ st.shadowFor.isSome then d
        else
          let d := gone.updStream r (fun s =>
            { s with expect := (f + 1) % rateMod (d.dom (d.clk r)).rate, shadow := [], shadowFor := some f, shadowP := fld b 7 1,
                     shadowMin := (d.dom r).nextBlk + (d.dom (d.clk r)).blk, undo := [] })
          Dev.walkRecs r (d.ltOfSc r at_) (fld b 4 2) (fld b 8 2) ((b.drop 64).take (fld b 10 2)) d))

/-- SCENE_FRAME_MISSED: the staging deadline of the expected frame has passed without it (R198, R199, R204). -/
def execSceneFrameMissed (r : Nat) (s : State) : Host.Outcome State Fault Refusal :=
  .next (s.onLive (fun d => d.missOne r))

/-- Objects that a CTX_WRITE due in the block of domain `r` that begins at `b` makes EXPERT: there the expert write wins
over a scene record (R132, R205). -/
def Dev.writtenNow (d : Dev) (r b : Nat) : List Nat :=
  (d.tagsWith (fun t => t.st = .active && t.ph ≠ .waiting && t.effs.any (fun e => (d.dueAt t r b e).isSome))).flatMap (fun n =>
    match (d.tag n).cmd with
    | some (.ctxWrite _ es) => es.map (fun e => e.ctx / 48)
    | _ => [])

/-- The frame in the shadow bank is discarded: it is missed, and none of its anchors counts as received (R191, R205). -/
def Dev.sceneDrop (d : Dev) (r : Nat) : Dev :=
  let st := d.stream r
  let d := st.undo.foldl (fun d e => d.updObj e.1 (fun a => { a with prev := e.2.1, cur := e.2.2 })) d
  let d := match st.ring with | some k => d.countBad k | none => d
  d.setStream r { st with shadow := [], shadowFor := none, undo := [], badFrame := sat32 st.badFrame, missed := sat32 st.missed }

/-- One object's new state takes effect (R200, R201); `ex` tells that an expert write wins. -/
def Dev.applyUpd (d : Dev) (u : Upd) (ex : Bool) : Dev :=
  let d := d.updObj u.obj (fun a => { a with x := u.x, y := u.y, z := u.z, gain := u.gain })
  if ex || (d.obj u.obj).expert then
    d.updObj u.obj (fun a => { a with basicIgn := satAdd (2 ^ 32 - 1) a.basicIgn u.count })
  else d.basicObj u.obj

/-- The bank switch of a stream at the render start of its application block, or late at the next (R198, R200); a frame
whose refresh period is no longer the stream's is discarded (R205). Without a ready processor nothing is recomputed
(R178). -/
def Dev.sceneSwitch (d : Dev) (r : Nat) : Dev :=
  let st := d.stream r
  match st.shadowFor with
  | none => d
  | some f =>
    let a := d.appBlk r f
    let b := (d.dom r).nextBlk
    if !d.sys.ready || !d.renders r || decide (b < a) || decide (b < st.shadowMin) then d
    else if st.shadowP ≠ st.p then d.sceneDrop r
    else
      let ex := d.writtenNow r b
      let d := st.shadow.foldl (fun d (u : Upd) => d.applyUpd u (ex.contains u.obj)) d
      d.updStream r (fun s => { s with shadow := [], shadowFor := none, undo := [], applied := sat32 s.applied,
                                       lateApply := if a < b then sat32 s.lateApply else s.lateApply })

/-- SCENE_BANK_SWITCH (R200). -/
def execSceneBankSwitch (r : Nat) (s : State) : Host.Outcome State Fault Refusal :=
  .next (s.onLive (fun d => if 4 ≤ r then d else d.sceneSwitch r))

/-- SCENE_CONFIG (R143, R202). -/
def checkSceneConfig (d : Dev) (sender dom en p ring : Nat) : Option Nat :=
  firstFail [(en = 1 && decide (ring < 4096) && (d.ring ring).st ≠ .disabled && (d.ring ring).owner ≠ fnOf sender, NOT_PERMITTED),
    (out dom 0 3 || out en 0 1 || out p 4 64
      || (en = 1 && !(d.ringFor (fnOf sender) ring 3 && (d.ring ring).domain = dom)), OUT_OF_RANGE)]

/-- SCENE_CONFIG at its frame boundary: enabling clears the held anchors and the counters (R194, R202, R203). -/
def applySceneConfig (d : Dev) (dom en p ring : Nat) : Dev :=
  let st := d.stream dom
  if en = 0 then d.setStream dom { st with en := false, p := p, ring := none, shadow := [], shadowFor := none, undo := [] }
  else if st.en then d.setStream dom { st with p := p, ring := some ring }
  else
    let d := { d with objs := Tab.mapAll (fun (_ : Nat) (o : Obj) => if o.dom = dom then { o with cur := none, prev := none } else o) d.objs }
    (d.setStream dom { Stream.reset with en := true, p := p, ring := some ring }).expectOne dom

end Sys2Proof.Machine
end

