-- ==== Sys2Proof/Machine/Ports.lean ====
section
/-! DEFINITION. The TDM ports and the PDM microphones (R302–R324): frames and the sample counter, slips, rings, frame
errors, masks, zero-crossing waits, non-audio detection, microphone records; the port commands (R146–R148). -/

namespace Sys2Proof.Machine

/-! ### Clock and positions (R304–R306) -/

/-- Clock of a port's domain. -/
def Dev.portClk (d : Dev) (p : Nat) : Dom := d.dom (d.clk (d.port p).dom)

/-- Samples of a domain in one µs of its present clock (R27). -/
def Dom.scRate (m : Dom) : Rat :=
  let nk := rateNK m.rate m.dbl
  m.speed * (nk.1 : Rat) / ((nk.2 * m.perFrame : Nat) : Rat)

/-- Exact sample count of a domain `us` µs from now (R27). -/
def Dom.scReal (m : Dom) (us : Rat) : Rat :=
  let nk := rateNK m.rate m.dbl
  ((m.w * m.sM : Nat) : Rat) + ((m.pos : Rat) + m.sub + us * m.speed) * (nk.1 : Rat) / ((nk.2 * m.perFrame : Nat) : Rat)

/-- Smallest whole number not below a fraction that is not negative. -/
def ceilN (x : Rat) : Nat := (-(-x).floor).toNat

/-- Where L_pres + T_B after a start period `ns` ns into the µs falls in the sample count (R306). -/
def Dev.rxPos (d : Dev) (p ns : Nat) : Rat :=
  let m := d.portClk p
  m.scReal (((d.dom (d.port p).dom).lpres : Rat) + (ns : Rat) / 1000) + (m.blk : Rat)

/-- A controller port's domain is permitted: the clock master, or TD1 paired with a clock-master TD0 (R304). -/
def Dev.ctrlOk (d : Dev) (dom : Nat) : Bool := dom = d.tb.master || (dom = 1 && d.tb.pair && d.tb.master = 0)

/-! ### Gates of slots (R315, R316, R318) -/

/-- Pass one value through a gate whose ramps last `n` frames. -/
def Gate.pass (g : Gate) (v : Int) (n : Nat) : Int × Gate :=
  let part := fun (v : Int) (k : Nat) => v * (k : Int) / (n : Int)
  match g.st with
  | .shut | .waitIn | .muted => (0, { g with last := 0 })
  | .open_ | .waitOut | .crossed => (v, { g with last := v })
  | .up =>
    let y := part v (g.pos + 1)
    (y, { g with last := y, pos := g.pos + 1, st := if n ≤ g.pos + 1 then .open_ else .up })
  | .down =>
    let y := part v (n - (g.pos + 1))
    (y, { g with last := y, pos := g.pos + 1, st := if n ≤ g.pos + 1 then .shut else .down })
  | .decay =>
    let y := g.last * ((16 - (g.pos + 1) : Nat) : Int) / ((16 - g.pos : Nat) : Int)
    (y, { g with last := y, pos := g.pos + 1, st := if 16 ≤ g.pos + 1 then .muted else .decay })

/-- A gate of a port. -/
def TPort.gate (p : TPort) (k : Nat) : Gate := Tab.get Gate.reset p.gates k
/-- Set a gate. -/
def TPort.setGate (p : TPort) (k : Nat) (g : Gate) : TPort := { p with gates := Tab.set p.gates k g }

/-- A slot begins to wait for its crossing before a ramp in; a silent one ramps at once (R316). -/
def TPort.waitIn (p : TPort) (now k : Nat) (last : Int) : TPort :=
  p.setGate k { st := if last = 0 then .up else .waitIn, since := now, limit := p.zcto, pos := 0, last := 0 }

/-- A slot begins to wait for its crossing before a ramp out; a silent one has crossed. `disable` marks R123's wait, which
goes on at a block boundary. -/
def TPort.waitOut (p : TPort) (now k : Nat) (disable : Bool) : TPort :=
  let g := p.gate k
  match g.st with
  | .up | .open_ | .waitOut =>
    let st : GateSt := if g.last = 0 then (if disable then .crossed else .down) else .waitOut
    p.setGate k { g with st := st, since := now, limit := p.zcto, pos := 0 }
  | .crossed | .down => p
  | _ => p.setGate k { g with st := .shut }

/-- A gate that is on its way to silence or holds a value other than silence. -/
def GateSt.busyOut : GateSt → Bool
  | .waitOut | .crossed | .down => true
  | _ => false

/-- The gates of a mask's slots, transmit slots from 32. -/
def gatesOf (rx tx : Nat) : List Nat := maskList 32 rx ++ (maskList 32 tx).map (· + 32)

/-! ### Transmit side (R307, R312, R313) -/

/-- The sample of TDMO slot `m` for SC `s`, where a staged record covers it (R312). -/
def Dev.tdmoAt (d : Dev) (p m s : Nat) : Option Int :=
  match (d.port p).txring with
  | none => none
  | some k =>
    match (d.ring k).staged.find? (fun b => bit (fld b 24 4) m && decide (fld b 16 8 ≤ s ∧ s < fld b 16 8 + fld b 2 1)) with
    | none => none
    | some b =>
      let rank := (maskList m (fld b 24 4)).length
      some (fldS b (32 + 4 * ((s - fld b 16 8) * fld b 3 1 + rank)) 4)

/-- A fraction of full scale as a 32-bit container. -/
def contOf (x : Rat) : Int := clampInt (-2147483648) 2147483647 (x * 2147483648).floor

/-- Content of a transmit slot by its route for SC `s`, before its gate (R148, R307). On a double-rate port a microphone's
48 kHz sample goes out in two frames. -/
def Dev.txValue (d : Dev) (p slot s : Nat) : Int × Dev :=
  let t := d.port p
  let r := (t.route[slot]?).getD 65535
  let S := (d.portClk p).blk
  if r < 48 then (contOf ((((d.chan r).loop.drv[s % S]?).getD 0) * d.emg.value d.sys.uptime), d)
  else if 0x100 ≤ r ∧ r < 0x120 then
    let b := (d.mic (r - 0x100)).buf
    let step := if b.length ≤ 32 then 1 else 4
    ((b[s % S * 32 / S * step]?).getD 0, d)
  else if 0x200 ≤ r ∧ r < 0x220 then
    ((((t.rxBuf.find? (fun e => e.1 = s)).bind (fun e => e.2[r - 0x200]?))).getD 0, d)
  else if 0x300 ≤ r ∧ r < 0x320 then
    let m := r - 0x300
    let have_ := Tab.get 0 t.txHave slot
    match d.tdmoAt p m s with
    | some v =>
      let k := min 33 (have_ + 1)
      let y := if 33 ≤ k then v else v * (k : Int) / 32
      (y, d.updPort p (fun t => { t with txHave := Tab.set t.txHave slot k, txHold := Tab.set t.txHold slot y,
                                         txGone := Tab.set t.txGone slot 0 }))
    | none =>
      let g := min 16 (Tab.get 0 t.txGone slot + 1)
      let y := Tab.get 0 t.txHold slot * ((16 - g : Nat) : Int) / 16
      (y, d.updPort p (fun t => { t with txHave := Tab.set t.txHave slot 0, txGone := Tab.set t.txGone slot g, txMiss := true }))
  else (0, d)

/-- Bits that a slot of `width` bits carries of a container: the lower ones are discarded (R303). -/
def cutSlot (width : Nat) (v : Int) : Int := v / 2 ^ (32 - width) * 2 ^ (32 - width)

/-- A value passes the gate that the destruction of its ring has set for its slot, if any (R83). -/
def Dev.ringPass (d : Dev) (p k : Nat) (v : Int) : Int × Dev :=
  let t := d.port p
  if !(t.rgates.any (fun e => e.1 = k)) then (v, d)
  else
    let g := (Tab.get Gate.reset t.rgates k).pass v (d.portClk p).blk
    (g.1, d.setPort p { t with rgates := Tab.set t.rgates k g.2 })

/-- A ring whose slots have all ramped to silence is no longer the port's (R83). -/
def TPort.ringsEnd (t : TPort) : TPort :=
  let shut := fun (l : Tab Gate) => !l.isEmpty && (l.all (fun (e : Nat × Gate) => e.2.st = .shut) || t.st ≠ .locked)
  let t := match t.rxring with
    | some k => if shut (t.rgates.filter (fun e => decide (e.1 < 32))) then t.letGo k else t
    | none => t
  match t.txring with
  | some k => if shut (t.rgates.filter (fun e => decide (32 ≤ e.1))) then t.letGo k else t
  | none => t

/-- The slots of a port's disable begin to wait for their crossings (R123). -/
def TPort.quiet (t : TPort) (now : Nat) (tx : Bool) : TPort :=
  let l := (t.gates.map (·.1)).filter (fun k => decide (32 ≤ k) = tx)
  let t := l.foldl (fun (t : TPort) k => t.waitOut now k true) t
  if tx then { t with offTx := true } else { t with offRx := true }

/-- A gate of the port that a disable has ramped to silence with the frame at SC `s` (R123 step 5). -/
def TPort.fallen (t : TPort) (k s : Nat) (g : Gate) : TPort :=
  let t' := if t.endTag.isSome && (t.gate k).st = .down && g.st = .shut then { t with silentSc := max t.silentSc s } else t
  t'.setGate k g

/-- Slots of a frame from the bits sampled in the BCLK periods from its start period on: slot s takes WIDTH bits from period
OFFSET + s·WIDTH, MSB first, left-justified in its container (R302, R303). -/
def TPort.frameSlots (t : TPort) (din : List Bool) : List Int :=
  (List.range t.slots).map (fun s =>
    let v := ((din.drop (t.offset + s * t.width)).take t.width).foldl (fun a b => 2 * a + b2n b) 0
    let x := v * 2 ^ (32 - t.width)
    if x < 2 ^ 31 then (x : Int) else (x : Int) - 2 ^ 32)

/-- DOUT in the frame's periods from OFFSET on: the container bits of the transmit mask's slots, MSB first; high-impedance
elsewhere (R303). -/
def TPort.doutOf (t : TPort) (slots : List Int) : List (Option Bool) :=
  ((List.range t.slots).map (fun s => (List.range t.width).map (fun k =>
    if bit t.tx s then some (bit (twos 32 ((slots[s]?).getD 0)) (31 - k)) else none))).flatten

/-- Periods for which a controller port drives FSYNC active (R302). -/
def TPort.fsync (t : TPort) : Option Nat :=
  if t.role ≠ 1 then none else some (if t.fsw = 0 then 1 else t.slots * t.width / 2)

/-- Send one frame: the gated slots of the transmit mask for the next SC; a block with missing TDMO data counts as
UNDERRUN, records that lie behind are dropped (R307, R312, R313). -/
def Dev.transmit (d : Dev) (p : Nat) : Dev :=
  let d := d.updPort p (fun t => if t.endTag.isSome && !t.offTx && decide (t.offSc ≤ t.txNext) then t.quiet d.sys.uptime true else t)
  let t := d.port p
  let s := t.txNext
  let S := (d.portClk p).blk
  let one := fun (a : List Int × Dev) (k : Nat) =>
    if !bit t.tx k then (a.1 ++ [0], a.2)
    else
      let v := a.2.txValue p k s
      let v := v.2.ringPass p (k + 32) v.1
      let g := ((v.2.port p).gate (k + 32)).pass v.1 S
      (a.1 ++ [cutSlot t.width g.1], v.2.updPort p (fun t => t.fallen (k + 32) s g.2))
  let r := (List.range t.slots).foldl one ([], d)
  let d := r.2.updPort p (fun t => { t with lastTx := r.1, txNext := s + 1, rxBuf := t.rxBuf.filter (fun e => decide (s < e.1)) })
  let d := match t.txring with
    | none => d
    | some k =>
      let miss : Bool := s % S = S - 1 && (d.port p).txMiss
      d.updRing k (fun r => { r with staged := r.staged.filter (fun b => decide (s + 1 < fld b 16 8 + fld b 2 1)),
                                     cntA := if miss then satInc 65535 r.cntA else r.cntA })
  let d := if s % S = S - 1 then d.updPort p (fun t => { t with txMiss := false }) else d
  if t.tx = 0 && t.role ≠ 1 then d else d.emit (.tdm p s t.pol t.fsync (t.doutOf r.1))

/-! ### Release of a held block (R310, R317–R319) -/

/-- The preamble stands in a pair of a frame (R317). -/
def TPort.preamble (p : TPort) (slots : List Int) (pr : Nat) : Bool :=
  let hi := fun (k : Nat) => twos 32 ((slots[k]?).getD 0) / 65536
  bit p.rx (2 * pr) && bit p.rx (2 * pr + 1) && decide (16 ≤ p.width) && hi (2 * pr) = 0xF872 && hi (2 * pr + 1) = 0x4E1F

/-- A preamble mutes its pair: both slots decay; the event opens once (R318). -/
def Dev.nonaudio (d : Dev) (p pr : Nat) : Dev :=
  let t := d.port p
  let new : Bool := !bit t.nonaudio pr
  let mute := fun (t : TPort) (k : Nat) =>
    let g := t.gate k
    if g.st = .decay || g.st = .muted then t else t.setGate k { g with st := .decay, pos := 0 }
  let d := d.updPort p (fun t =>
    { (mute (mute t (2 * pr)) (2 * pr + 1)) with
      nonaudio := t.nonaudio ||| 2 ^ pr, preAt := Tab.set t.preAt pr d.sys.uptime })
  if new then d.alarmIn t.dom 0x0403 p pr 1 0 else d

/-- The pair's mute has ended: its event closes (R318). -/
def Dev.nonaudioEnd (d : Dev) (p pr : Nat) : Dev :=
  let t := d.port p
  if !bit t.nonaudio pr then d
  else (d.setPort p { t with nonaudio := t.nonaudio - 2 ^ pr }).raiseIn t.dom 0x0403 p pr 4

/-- One frame goes to the objects and the transmit routes, by its SC. -/
def Dev.releaseFrame (d : Dev) (p sc : Nat) (f : TFrame) : Dev :=
  let S := (d.portClk p).blk
  let d := d.updPort p (fun t => if t.endTag.isSome && !t.offRx && decide (t.offSc ≤ sc) then t.quiet d.sys.uptime false else t)
  let d := if f.silent then d
    else d.forEach (List.range 16) (fun pr d => if (d.port p).preamble f.slots pr then d.nonaudio p pr else d)
  let one := fun (a : List Int × Dev) (k : Nat) =>
    let t := a.2.port p
    let g := (t.gate k).pass (if bit t.rx k then (f.slots[k]?).getD 0 else 0) S
    (a.1 ++ [g.1], a.2.setPort p (t.fallen k sc g.2))
  let r := (List.range 32).foldl one ([], d)
  let d := r.2.updPort p (fun t => { t with lastRx := r.1, rxBuf := t.rxBuf ++ [(sc, r.1)] })
  let d := d.forEach (List.range 16) (fun pr d =>
    let t := d.port p
    if bit t.nonaudio pr && (t.gate (2 * pr)).st = .open_ && (t.gate (2 * pr + 1)).st = .open_ then d.nonaudioEnd p pr else d)
  if f.silent then d
  else { d with objs := Tab.mapAll (fun (_ : Nat) (o : Obj) =>
    if o.src = 2 && o.bind / 32 = p && !o.stopped then
      { o with tdmIn := o.tdmIn ++ [(sc, ((r.1[o.bind % 32]?).getD 0 : Rat) / 2147483648)] } else o) d.objs }

/-- Header of a record (R76). -/
def recHead (kind flags nf nch len lt sc mask seq : Nat) : List Nat :=
  [kind, flags, nf, nch] ++ le 2 len ++ [0, 0] ++ le 8 lt ++ le 8 sc ++ le 4 mask ++ le 4 seq

/-- A BLOCK record of some frames' samples, padded to whole units (R76). -/
def blockRec (flags nf nch lt sc mask seq : Nat) (samples : List Int) : List Nat :=
  let len := 1 + (samples.length * 4 + 31) / 32
  let body := samples.foldr (fun v acc => le 4 (twos 32 v) ++ acc) []
  recHead 1 flags nf nch len lt sc mask seq ++ body ++ List.replicate ((len - 1) * 32 - body.length) 0

/-- Release the first `n` held frames: objects, routes and the TDMI record (R310). -/
def Dev.release (d : Dev) (p n : Nat) : Dev :=
  let t := d.port p
  let l := t.held.take n
  if l.isEmpty then d
  else
    let sc := t.heldSc
    let r := l.foldl (fun (a : Dev × Nat × Bool) f =>
      let d := a.1.releaseFrame p a.2.1 f
      (d, a.2.1 + 1, a.2.2 || (d.port p).nonaudio ≠ 0)) (d, sc, false)
    let d := r.1.updPort p (fun t => { t with held := t.held.drop n, heldSc := sc + l.length, recFlags := 0 })
    match t.rxring with
    | none => d
    | some k =>
      if t.rx = 0 then d
      else
        let m := maskList 32 t.rx
        let flags := t.recFlags + 4 * b2n (l.any (·.silent)) + 8 * b2n r.2.2
        let x := l.foldl (fun (a : List Int × Dev) f => m.foldl (fun (a : List Int × Dev) s =>
          let v := a.2.ringPass p s ((f.slots[s]?).getD 0)
          (a.1 ++ [v.1], v.2)) a) (([] : List Int), d)
        let samples := x.1
        let d := x.2
        d.record k (blockRec flags l.length m.length ((l.head?.map (·.lt)).getD 0) sc t.rx (d.ring k).recSeq samples)

/-! ### Slips (R308, R309) -/

/-- Locked target ports of a port's group and domain, the port itself among them. -/
def Dev.members (d : Dev) (p : Nat) : List Nat :=
  let t := d.port p
  if t.group = 0 then [p]
  else (List.range 4).filter (fun q =>
    let u := d.port q
    u.group = t.group && u.dom = t.dom && u.role = 0 && u.st = .locked)

/-- Level of a held frame: across the group's members that hold the same SC. -/
def Dev.levelAt (d : Dev) (p j : Nat) (alone : Bool) : Nat :=
  let t := d.port p
  let own := (t.held[j]?.map (·.level)).getD 0
  if alone then own
  else (d.members p).foldl (fun v q =>
    let u := d.port q
    let sc := t.heldSc + j
    if sc < u.heldSc then v else max v ((u.held[sc - u.heldSc]?.map (·.level)).getD 0)) own

/-- Drop or repeat held frame `j` (R308). -/
def Dev.slipAct (d : Dev) (p j : Nat) (add forced : Bool) : Dev :=
  let t := d.port p
  let sf := t.heldSc + j
  match t.held[j]? with
  | none => d
  | some f =>
    let t := if add then
        { t with held := t.held.take j ++ [f, f] ++ t.held.drop (j + 1), nextSc := t.nextSc + 1, txNext := t.txNext + 1,
                 slipAdd := satInc (2 ^ 32 - 1) t.slipAdd }
      else
        { t with held := t.held.take j ++ t.held.drop (j + 1), nextSc := t.nextSc - 1, txNext := t.txNext - 1,
                 slipDrop := satInc (2 ^ 32 - 1) t.slipDrop }
    let t := { t with slip := none, slipAt := none, recFlags := t.recFlags ||| (if add then 1 else 2),
                      slipForced := if forced then satInc (2 ^ 32 - 1) t.slipForced else t.slipForced,
                      delta := if add then t.delta + 1 else t.delta - 1 }
    (d.setPort p t).raiseIn t.dom 0x0402 p (b2n (!add) + sf % 2 ^ 32 * 2 ^ 32)  0

/-- The frame of a held block with the least level that a slip may take. -/
def Dev.quietest (d : Dev) (p : Nat) (alone : Bool) : Option Nat :=
  let t := d.port p
  (List.range t.held.length).foldl (fun (b : Option Nat) j =>
    if (t.held[j]?.map (·.excl)).getD true then b
    else match b with
      | some x => if d.levelAt p j alone < d.levelAt p x alone then some j else b
      | none => some j) none

/-- −66 dBFS of a container. -/
def quietLevel : Nat := 1076291

/-- The slip decision of a held block (R308), of a group's leader or of a port alone. -/
def Dev.slipDecide (d : Dev) (p : Nat) (alone : Bool) : Dev :=
  let S := (d.portClk p).blk
  let t := d.port p
  let lo : Rat := if alone && t.group ≠ 0 then -1 else -1 / 2
  let hi : Rat := if alone && t.group ≠ 0 then 2 else 3 / 2
  let t := if t.slip.isSome then t
    else if hi < t.delta then { t with slip := some false, slipLeft := (t.win + S - 1) / S }
    else if t.delta < lo then { t with slip := some true, slipLeft := (t.win + S - 1) / S }
    else t
  let d := d.setPort p t
  match t.slip, d.quietest p alone with
  | some add, some j =>
    let lv := d.levelAt p j alone
    if lv ≤ quietLevel ∨ t.slipLeft ≤ 1 then
      let sf := t.heldSc + j
      let d := if alone then d else d.forEach ((d.members p).filter (· ≠ p)) (fun q d =>
        d.updPort q (fun u => { u with slipAt := some (sf, add) }))
      d.slipAct p j add (decide (quietLevel < lv))
    else d.updPort p (fun t => { t with slipLeft := t.slipLeft - 1 })
  | some _, none => d.updPort p (fun t => { t with slipLeft := max 1 (t.slipLeft - 1) })
  | none, _ => d

/-- The slip step of a completed block: the leader decides; a member follows the leader, or slips alone beyond −1.0 to
+2.0 frame periods (R309). -/
def Dev.slipStep (d : Dev) (p : Nat) : Dev :=
  let t := d.port p
  if t.role = 1 then d
  else
    let l := d.members p
    if t.group = 0 || l.head? = some p then d.slipDecide p (t.group = 0)
    else if t.delta < -1 ∨ 2 < t.delta then d.slipDecide p true
    else match t.slipAt with
      | some (sf, add) =>
        if sf < t.heldSc then d.slipAct p 0 add false
        else if sf < t.heldSc + t.held.length then d.slipAct p (sf - t.heldSc) add false
        else d
      | none => d

/-! ### Masks and routes (R315) -/

/-- Step 1 of R315: slots that leave a mask and carry audio wait for their crossing. RESULT counts them. -/
def Dev.maskBegin (d : Dev) (tag p rx tx : Nat) : Dev :=
  let t := d.port p
  let fed := fun (k : Nat) => d.objs.any (fun o => o.2.src = 2 && o.2.bind = 32 * p + k) || t.route.contains (0x200 + k)
  let goneRx := (maskList 32 t.rx).filter (fun k => !bit rx k && fed k)
  let goneTx := ((maskList 32 t.tx).filter (fun k => !bit tx k && (t.route[k]?).getD 65535 ≠ 65535)).map (· + 32)
  let l := if t.st = .locked then goneRx ++ goneTx else []
  let t := l.foldl (fun (t : TPort) k => t.waitOut d.sys.uptime k false) t
  let n := (l.filter (fun k => (t.gate k).st = .waitOut)).length
  (d.setPort p { t with maskNext := some (rx, tx, tag) }).updTag tag (fun g => { g with ph := .ending, result := n })

/-- A slot's last received value; of a transmit slot none is known. -/
def TPort.lastOf (t : TPort) (k : Nat) : Int := if k < 32 then (t.lastRx[k]?).getD 1 else 1

/-- The port with new masks: the gates of slots outside them are gone, slots that enter wait for their crossing. -/
def TPort.newMasks (t old : TPort) (rx tx now : Nat) : TPort :=
  let keep := gatesOf rx tx
  let was := gatesOf old.rx old.tx
  let u := { t with rx := rx, tx := tx, maskNext := none, heldSc := t.nextSc, fresh := true, expert := false }
  let u := { u with gates := u.gates.filter (fun e => keep.contains e.1) }
  (keep.filter (fun k => !was.contains k)).foldl (fun (u : TPort) k => u.waitIn now k (u.lastOf k)) u

/-- Muted pairs that leave the receive mask are released without a ramp (R318). -/
def Dev.pairsLeave (d : Dev) (p rx : Nat) : Dev :=
  d.forEach (List.range 16) (fun pr d => if bit rx (2 * pr) && bit rx (2 * pr + 1) then d else d.nonaudioEnd p pr)

/-- The FORMAT record of a mask change (R315). -/
def Dev.formatRec (d : Dev) (p lt : Nat) : Dev :=
  let t := d.port p
  match t.rxring with
  | none => d
  | some k => d.record k (recHead 2 0 0 (maskList 32 t.rx).length 1 lt t.nextSc t.rx (d.ring k).recSeq)

/-- Step 3: the masks change at this frame; the record in progress ends before it, a FORMAT record follows, slots that enter
wait for their crossing; a muted pair that leaves is released. -/
def Dev.maskChange (d : Dev) (p rx tx tag : Nat) : Dev :=
  let d := d.release p (d.port p).held.length
  let old := d.port p
  let d := d.pairsLeave p rx
  let d := d.updPort p (fun t => t.newMasks old rx tx d.sys.uptime)
  let t := d.port p
  let lt := d.ltNow t.dom
  let d := d.formatRec p lt
  let g := d.tag tag
  if g.st = .active then (d.setTag tag { g with ltDom := t.dom }).finish tag OK lt g.result else d

/-- The pending mask change has no slot that still ramps. -/
def TPort.maskReady (t : TPort) : Bool := !t.gates.any (fun e => e.2.st.busyOut)

/-- Port commands of the FSYNC moment that are due at this frame (R133 P), in acceptance order; the processor holds them during a
restart (R121). -/
def Dev.portCmds (d : Dev) (p ns : Nat) : Dev :=
  let now := (d.portClk p).scReal ((ns : Rat) / 1000)
  let l := d.tagsInOrder (fun t => t.uncommitted && t.ph = .sched &&
    (match t.cmd with
     | some (.portMask q ..) | some (.portRoute q _) => q = p
     | _ => false) && t.effs.all (fun e => decide ((e.2 : Rat) ≤ now)))
  if !d.sys.ready then d else d.forEach l (fun n d =>
    match (d.tag n).cmd with
    | some (.portMask _ rx tx) =>
      if (d.port p).maskNext.isSome then d else (d.updTag n (fun t => { t with effs := [] })).maskBegin n p rx tx
    | some (.portRoute _ src) =>
      let d := (d.updPort p (fun t => { t with route := src })).updTag n (fun t => { t with effs := [], ltDom := t.ltDom })
      let t := d.tag n
      (d.setTag n { t with ltDom := (d.port p).dom }).finish n t.rstatus (d.ltNow (d.port p).dom) 0
    | _ => d)

/-! ### Lock and frames (R305, R306, R314) -/

/-- Lock: SC is assigned to the frame, the rate measurement starts, the slots wait to ramp in. -/
def Dev.portLock (d : Dev) (p ns : Nat) : Dev :=
  let x := d.rxPos p ns
  let now := d.sys.uptime
  let t := d.port p
  let sc := ceilN x
  let m := d.portClk p
  let t := { t with st := .locked, nextSc := sc, heldSc := sc, held := [], delta := (sc : Rat) - x,
                    txNext := ceilN (m.scReal ((ns : Rat) / 1000)), rateAt := now, errRun := 0, slip := none, slipAt := none,
                    recFlags := 0, rxBuf := [], fresh := true, rateT0 := 1000 * now + ns, rateT1 := 1000 * now + ns, rateN := 0 }
  let t := (gatesOf t.rx t.tx).foldl (fun (t : TPort) k =>
    if (t.gate k).st = .muted || (t.gate k).st = .decay then t else t.waitIn now k 1) t
  d.setPort p t

/-- The port unlocks for a cause: its last record ends, its inputs decay, the event is counted and recorded (R305). -/
def Dev.portUnlock (d : Dev) (p cause : Nat) : Dev :=
  let d := d.release p (d.port p).held.length
  let d := d.updPort p (fun t => ({ t.relock with unlocks := satInc 65535 t.unlocks } : TPort).ringsEnd)
  d.alarmIn (d.port p).dom 0x0401 p cause 0 0

/-- A crossed gate of a disable starts its ramp at the block boundary (R123). -/
def TPort.boundary (t : TPort) : TPort :=
  let go := fun (_ : Nat) (g : Gate) => if g.st = .crossed then { g with st := .down, pos := 0 } else g
  { t with gates := Tab.mapAll go t.gates, rgates := Tab.mapAll go t.rgates }

/-- The frame before one in which a non-audio mute takes effect is no choice of a slip either (R308). -/
def exclLast (on : Bool) (l : List TFrame) : List TFrame :=
  if on then l.mapIdx (fun k f => if k + 1 = l.length then { f with excl := true } else f) else l

/-- One frame of a locked port: masks, transmission, error check, reception, and a completed block's slip and release. -/
def Dev.portFrame (d : Dev) (p periods : Nat) (din : List Bool) (ns : Nat) : Dev :=
  let S := (d.portClk p).blk
  let d := match (d.port p).maskNext with
    | some (rx, tx, tag) => if (d.port p).maskReady then d.maskChange p rx tx tag else d
    | none => d
  let d := d.transmit p
  let t := d.port p
  let L := t.slots * t.width
  let early : Bool := t.role = 0 && decide (periods < L)
  let err : Bool := t.role = 0 && periods ≠ L
  let slots := t.frameSlots din
  let inMask := (maskList 32 t.rx).map (fun k => ((slots[k]?).getD 0).natAbs)
  let lvl := (inMask ++ t.lastTx.map Int.natAbs).foldl max 0
  let mutes : Bool := !early && (List.range 16).any (fun pr => !bit t.nonaudio pr && t.preamble slots pr)
  let f : TFrame := { slots := if early then [] else slots, silent := early, level := if early then 0 else lvl,
                      lt := d.ltNow t.dom, excl := t.fresh || mutes }
  let t : TPort := { t with held := exclLast mutes t.held ++ [f], delta := (t.nextSc : Rat) - d.rxPos p ns,
                            nextSc := t.nextSc + 1, fresh := false, rateT1 := 1000 * d.sys.uptime + ns,
                            rateN := if t.rateT1 < 1000 * d.sys.uptime + ns then t.rateN + 1 else t.rateN,
                            frameErr := if err then satInc (2 ^ 32 - 1) t.frameErr else t.frameErr,
                            errRun := if err then t.errRun + 1 else 0 }
  let d := d.setPort p t
  if t.errRun = 4 then d.portUnlock p 2
  else if t.nextSc % S ≠ 0 then d
  else
    let d := d.slipStep p
    let t := d.port p
    if t.nextSc % S ≠ 0 && t.nextSc < t.heldSc + S - t.heldSc % S then d
    else (d.release p (S - t.heldSc % S)).updPort p (fun t => t.boundary.ringsEnd)

/-- A controller port's clocks run from the acceptance of its PORT_ENABLE on, before the command's sample (R304). -/
def Dev.clocksEarly (d : Dev) (p : Nat) : Bool :=
  (d.port p).role = 1 && d.tags.any (fun e => e.2.uncommitted &&
    (match e.2.cmd with
     | some (.portEnable q 1 ..) => q = p
     | _ => false))

/-- A controller's frame before its first sample: clocks alone, no slot driven. -/
def Dev.clockFrame (d : Dev) (p : Nat) : Dev :=
  let t := d.port p
  d.emit (.tdm p 0 t.pol t.fsync (List.replicate (t.slots * t.width) none))

/-- TDM_FRAME: a start period of port `p` is found `ns` ns into the µs; `din` are the bits sampled on DIN in the BCLK periods
from it on, on the edge that POL names, and the next start period comes `periods` periods after it (R303–R319). -/
def execTdmFrame (p periods : Nat) (din : List Bool) (ns : Nat) (s : State) : Host.Outcome State Fault Refusal :=
  .next (s.onLive (fun d =>
    let t := d.port p
    if 4 ≤ p ∨ (t.role = 1 ∧ !d.ctrlOk t.dom) then d
    else if t.st = .off then (if d.clocksEarly p then d.clockFrame p else d)
    else
      let d := (d.portCmds p ns).updPort p (fun t => { t with lastAt := d.sys.uptime })
      let st := (d.dom t.dom).st
      if t.st = .unlocked then
        if st = .disabled || st = .acquire || decide (ceilN (d.rxPos p ns) < t.onSc) then
          (if t.role = 1 then d.clockFrame p else d)
        else (d.portLock p ns).portFrame p periods din ns
      else d.portFrame p periods din ns))

/-- BCLK_TIMEOUT: no BCLK edge for 10 µs on a locked target port (R305). -/
def execBclkTimeout (p : Nat) (s : State) : Host.Outcome State Fault Refusal :=
  .next (s.onLive (fun d =>
    let t := d.port p
    if 4 ≤ p ∨ t.st ≠ .locked ∨ t.role = 1 ∨ d.sys.uptime < t.lastAt + 10 then d else d.portUnlock p 1))

/-- FSYNC_TIMEOUT: no start period for 4 frame periods (R305). -/
def execFsyncTimeout (p : Nat) (s : State) : Host.Outcome State Fault Refusal :=
  .next (s.onLive (fun d =>
    let t := d.port p
    let wait := 4000000 / (d.portClk p).fs
    if 4 ≤ p ∨ t.st ≠ .locked ∨ t.role = 1 ∨ d.sys.uptime < t.lastAt + wait then d else d.portUnlock p 2))

/-- Rate offset of a port in ppb of its domain's sample rate, from the frames of the interval and their timestamps (R305). -/
def Dev.ratePpb (d : Dev) (p : Nat) : Int :=
  let t := d.port p
  let sc : Rat := ((t.rateT1 - t.rateT0 : Nat) : Rat) / 1000 * (d.portClk p).scRate
  if sc = 0 then t.ppb else roundI (((t.rateN : Rat) / sc - 1) * 1000000000)

/-- RATE_INTERVAL_END: 100 ms of frame timestamps have given a rate offset: PPB is updated, and beyond ±200 ppm the port
unlocks (R305). -/
def execRateIntervalEnd (p : Nat) (_rate : Own) (s : State) : Host.Outcome State Fault Refusal :=
  .next (s.onLive (fun d =>
    let t := d.port p
    if 4 ≤ p ∨ t.st ≠ .locked ∨ t.role = 1 ∨ d.sys.uptime < t.rateAt + 100000 then d
    else
      let ppb := d.ratePpb p
      let d := d.setPort p { t with ppb := ppb, rateAt := d.sys.uptime, rateT0 := t.rateT1, rateN := 0 }
      if ppb.natAbs ≤ 200000 then d else d.portUnlock p 4))

/-- NONAUDIO_RELEASE: no preamble in pair `pr` for 341.3 ms: its slots wait for their crossings and ramp in (R318). -/
def execNonaudioRelease (p pr : Nat) (s : State) : Host.Outcome State Fault Refusal :=
  .next (s.onLive (fun d =>
    let t := d.port p
    let back := fun (t : TPort) (k : Nat) =>
      if (t.gate k).st = .muted || (t.gate k).st = .decay then
        if t.st = .locked then t.waitIn d.sys.uptime k 1 else t.setGate k { t.gate k with st := .shut }
      else t
    if 4 ≤ p ∨ !bit t.nonaudio pr ∨ d.sys.uptime < Tab.get 0 t.preAt pr + 341333 then d
    else d.setPort p (back (back t (2 * pr)) (2 * pr + 1))))

/-- The same of a slot whose ring is being destroyed (R83). -/
def Dev.ringCross (d : Dev) (p k : Nat) (timeout : Bool) : Dev :=
  let t := d.port p
  let g := Tab.get Gate.reset t.rgates k
  if g.st ≠ .waitOut || (timeout && decide (d.sys.uptime < g.since + 1000 * g.limit)) then d
  else d.setPort p { t with rgates := Tab.set t.rgates k { g with st := .crossed, pos := 0 },
                            zctoCnt := if timeout then satInc (2 ^ 32 - 1) t.zctoCnt else t.zctoCnt }

/-- A slot's wait ends by a crossing or by its timeout, which is counted (R123, R316). -/
def Dev.portCross (d : Dev) (p k : Nat) (timeout : Bool) : Dev :=
  let d := d.ringCross p k timeout
  let t := d.port p
  let g := t.gate k
  let due : Bool := !timeout || decide (g.since + 1000 * g.limit ≤ d.sys.uptime)
  if !due || (g.st ≠ .waitIn && g.st ≠ .waitOut) then d
  else
    let st : GateSt := if g.st = .waitIn then .up else if t.endTag.isSome then .crossed else .down
    let d := d.setPort p { (t.setGate k { g with st := st, pos := 0 }) with
      zctoCnt := if timeout then satInc (2 ^ 32 - 1) t.zctoCnt else t.zctoCnt }
    if !timeout || g.st = .waitIn then d
    else match t.endTag, t.maskNext with
      | some n, _ => d.updTag n (fun x => { x with zctos := satInc 65535 x.zctos })
      | none, some (_, _, n) => d.updTag n (fun x => { x with result := x.result + 65536 })
      | none, none => d

/-- The port's role is no longer permitted after a change of the clock master: a controller stops its clocks and reports
UNLOCKED with the rate cause (R304). -/
def Dev.portsRole (d : Dev) : Dev :=
  d.forEach (List.range 4) (fun p d =>
    let t := d.port p
    if t.role = 1 && t.st = .locked && !d.ctrlOk t.dom then d.portUnlock p 4 else d)

/-- SLEEP: target ports unlock silently (R305, R378). -/
def Dev.portsSleep (d : Dev) : Dev :=
  d.forEach (List.range 4) (fun p d => (d.release p (d.port p).held.length).updPort p (fun t => t.relock.ringsEnd))

/-! ### Commands (R146–R148, R302) -/

/-- A format does not fit: offset, bit rate, or a controller outside the clock-master domain (R302, R304). -/
def Dev.formatBad (d : Dev) (slots width offset role dom : Nat) : Bool :=
  decide (slots * width ≤ offset) || decide (49152000 < slots * width * (d.dom (d.clk dom)).fs)
    || (role = 1 && !d.ctrlOk dom)

/-- Slots, width and frame sync of a preset (R147). -/
def presetOf : Nat → Option (Nat × Nat × Nat)
  | 1 => some (2, 32, 1) | 2 => some (8, 32, 0) | 3 => some (16, 32, 0) | 4 => some (32, 32, 0)
  | 5 => some (32, 16, 0) | 6 => some (16, 32, 0) | _ => none

/-- PORT_PRESET (R146, R147). -/
def checkPortPreset (d : Dev) (p preset role dom : Nat) : Option Nat :=
  let bad : Bool := match presetOf preset with
    | none => true
    | some x => d.formatBad x.1 x.2.1 1 role dom || (preset = 6 && !(d.dom (d.clk dom)).dbl)
  firstFail [(out p 0 3 || out role 0 1 || out dom 0 3 || bad, OUT_OF_RANGE), ((d.port p).st ≠ .off, BUSY)]

/-- PORT_PRESET: format, role and domain; the expert values of PORT_SLIP return to their reset values (R122). -/
def applyPortPreset (d : Dev) (p preset role dom : Nat) : Dev :=
  match presetOf preset with
  | none => d
  | some x => d.updPort p (fun t => { t with
      slots := x.1, width := x.2.1, fsw := x.2.2, offset := 1, pol := 0, role := role, dom := dom, group := 0, win := 256,
      zcto := 10, expert := false })

/-- PORT_FORMAT (R146, R302). -/
def checkPortFormat (d : Dev) (p slots width offset fsw pol role dom : Nat) : Option Nat :=
  firstFail [(out p 0 3 || out slots 1 32 || out width 8 32 || out offset 0 31 || out fsw 0 1 || out pol 0 3 || out role 0 1
      || out dom 0 3 || d.formatBad slots width offset role dom, OUT_OF_RANGE), ((d.port p).st ≠ .off, BUSY)]

/-- PORT_FORMAT. -/
def applyPortFormat (d : Dev) (p slots width offset fsw pol role dom : Nat) : Dev :=
  d.updPort p (fun t => { t with slots := slots, width := width, offset := offset, fsw := fsw, pol := pol, role := role,
                                 dom := dom, expert := true })

/-- A ring that PORT_ENABLE names: a ring of the type, of the sender, bound to the port, or none (R146). -/
def Dev.portRing (d : Dev) (fn p k type : Nat) : Bool := k = 0xFFFF || (d.ringFor fn k type && (d.ring k).bind = p)

/-- PORT_ENABLE (R146). -/
def checkPortEnable (d : Dev) (sender p en rx tx : Nat) : Option Nat :=
  let fn := fnOf sender
  let foreign := fun (k : Nat) => decide (k < 4096) && (d.ring k).st ≠ .disabled && (d.ring k).owner ≠ fn
  firstFail [(en = 1 && (foreign rx || foreign tx), NOT_PERMITTED),
    (out p 0 3 || out en 0 1 || (en = 1 && !(d.portRing fn p rx 4 && d.portRing fn p tx 5)), OUT_OF_RANGE)]

/-- PORT_ENABLE with EN = 1: the port watches its clocks, or a controller starts them, to lock with no sample before
the effective one `s` (R33, R304, R305); the counters of the mirror are cleared (R412). -/
def applyPortOn (d : Dev) (p rx tx s : Nat) : Dev :=
  let ringOf := fun (k : Nat) => if k = 0xFFFF then none else some k
  d.updPort p (fun t => { t with en := true, st := if t.st = .off then .unlocked else t.st, rxring := ringOf rx,
                                 txring := ringOf tx, slipForced := 0, frameErr := 0, zctoCnt := 0,
                                 onSc := if t.st = .off then s else t.onSc })

/-- PORT_ENABLE with EN = 0: from the effective sample `s` on each slot that carries audio waits for its crossing
(R33, R123). -/
def applyPortOff (d : Dev) (tag p s : Nat) : Dev :=
  let t := d.port p
  let d := match t.maskNext with
    | some (_, _, n) => (d.fail n CANCELLED).countCancel tag 1
    | none => d
  let d := d.updTag tag (fun g => { g with ph := .ending, dma := t.txring.toList })
  d.setPort p { t with maskNext := none, slip := none, endTag := some tag, offSc := s, offRx := false, offTx := false,
                       silentSc := 0 }

/-- The port's disable ends: every slot is silent, or no frames come (R123 step 5): OFF, its rings unbound. -/
def Dev.portOff (d : Dev) (p : Nat) : Dev :=
  let t := d.port p
  match t.endTag with
  | none => d
  | some n =>
    if t.st = .locked && !(t.offRx && t.offTx && t.gates.all (fun e => e.2.st = .shut)) then d
    else
      let lt := if t.silentSc = 0 then d.ltNow t.dom else d.ltOfSc t.dom t.silentSc
      let d := if t.st = .locked then d.release p t.held.length else d
      let d := d.updPort p (fun t => { t.relock with st := .off, en := false, endTag := none, rxring := none, txring := none, nonaudio := 0,
                                                     gates := [], rgates := [] })
      let d := d.closeFault 0x0403 p
      d.endDisable n t.dom lt

/-- PORT_MASK (R146). -/
def checkPortMask (_d : Dev) (p : Nat) : Option Nat := firstFail [(out p 0 3, OUT_OF_RANGE)]

/-- PORT_MASK on a port of a DISABLED domain, ASAP: the masks are stored (R418). -/
def applyPortMask (d : Dev) (p rx tx : Nat) : Dev := d.updPort p (fun t => { t with rx := rx, tx := tx, expert := false })

/-- PORT_SLIP (R146). -/
def checkPortSlip (_d : Dev) (p group win zcto : Nat) : Option Nat :=
  firstFail [(out p 0 3 || out group 0 3 || out win 32 1024 || out zcto 1 100, OUT_OF_RANGE)]

/-- PORT_SLIP: a pending search restarts; running waits keep their old timeout (R323). -/
def applyPortSlip (d : Dev) (p group win zcto : Nat) : Dev :=
  let S := (d.portClk p).blk
  d.updPort p (fun t => { t with group := group, win := win, zcto := zcto, slipLeft := (win + S - 1) / S, expert := true })

/-- A route entry that R148 does not list. -/
def routeBad (r : Nat) : Bool :=
  !(decide (r < 48) || decide (0x100 ≤ r ∧ r < 0x120) || decide (0x200 ≤ r ∧ r < 0x220) || decide (0x300 ≤ r ∧ r < 0x320)
    || r = 0xFFFF)

/-- PORT_ROUTE (R146, R148). -/
def checkPortRoute (_d : Dev) (p : Nat) (src : List Nat) : Option Nat :=
  firstFail [(out p 0 3 || src.length ≠ 32 || src.any routeBad, OUT_OF_RANGE)]

/-- PORT_ROUTE on a port of a DISABLED domain, ASAP. -/
def applyPortRoute (d : Dev) (p : Nat) (src : List Nat) : Dev := d.updPort p (fun t => { t with route := src })

/-! ### Microphones (R17, R319–R322) -/

/-- PDM_CONFIG (R146). -/
def checkPdmConfig (d : Dev) (clk mask : Nat) (g : List Nat) : Option Nat :=
  firstFail [(out clk 0 2 || g.any (fun m => m &&& mask ≠ m), OUT_OF_RANGE),
    (d.rings.any (fun p => p.2.type = 6 && p.2.st ≠ .disabled), BUSY)]

/-- PDM_CONFIG: microphones that enter, or whose clock starts, settle for 50 ms (R321). -/
def applyPdmConfig (d : Dev) (clk mask : Nat) (g : List Nat) : Dev :=
  let old := d.pdm.mask
  let ran := fun (m : Nat) => if m < 16 then old % 65536 ≠ 0 else old / 65536 ≠ 0
  let d := { d with pdm := { d.pdm with clk := clk, mask := mask, gmask := g } }
  d.forEach (List.range 32) (fun m d =>
    if bit mask m && (!bit old m || !ran m) then d.updMic m (fun x => { x with settle := d.sys.uptime + 50000, buf := [] })
    else if bit mask m then d
    else d.updMic m (fun x => { x with settle := 0, buf := [] }))

/-- MIC_STUCK_DETECT: 1,024 identical bits of microphone `m`: it is faulty, its chain delivers zeros (R17, R321). -/
def execMicStuckDetect (m : Nat) (s : State) : Host.Outcome State Fault Refusal :=
  .next (s.onLive (fun d =>
    if 32 ≤ m ∨ !bit d.pdm.mask m then d
    else
      let was := (d.mic m).faulty
      let d := d.updMic m (fun x => { x with faulty := true, stuckAt := some d.sys.uptime })
      if was then d else d.alarmIn d.tb.master 0x0404 m 0 1 0))

/-- MIC_FAULT_CLEAR: 1.0 s without such a run: the mark clears and the event closes (R321). -/
def execMicFaultClear (m : Nat) (s : State) : Host.Outcome State Fault Refusal :=
  .next (s.onLive (fun d =>
    let x := d.mic m
    match x.stuckAt with
    | some t =>
      if !x.faulty ∨ d.sys.uptime < t + 1000000 then d
      else (d.setMic m { x with faulty := false, stuckAt := none }).raiseIn d.tb.master 0x0404 m 0 4
    | none => d))

/-- MIC_SETTLE_END: the 50 ms have passed: the chain delivers data (R321). -/
def execMicSettleEnd (m : Nat) (s : State) : Host.Outcome State Fault Refusal :=
  .next (s.onLive (fun d =>
    let x := d.mic m
    if x.settle = 0 ∨ d.sys.uptime < x.settle then d else d.setMic m { x with settle := 0 }))

/-- Group delay of a microphone tap in ns (R229, R230), by preset and PDM clock. -/
def micDelay (preset clk : Nat) : Nat :=
  (match clk with | 0 => 11393 | 1 => 12207 | _ => 12614) + (if preset = 1 then 7813 else 723958)

/-- The BLOCK record of a MIC ring for the block of the clock master that begins at `sc` (R322): one frame for each output of
the group's selected tap in the block, one fewer where a DSYNC reset moved one out (R238); zeros of faulty, settling and
idle microphones. -/
def Dev.micBlock (d : Dev) (k sc : Nat) : Dev :=
  let r := d.ring k
  let mask := (d.pdm.gmask[r.bind]?).getD 0
  let l := maskList 32 mask
  let c := d.chain (96 + l.headD 0)
  let nf := (d.mic (l.headD 0)).buf.length
  let samples := ((List.range nf).map (fun i => l.map (fun m => ((d.mic m).buf[i]?).getD 0))).flatten
  let silent := l.any (fun m => (d.mic m).settle ≠ 0)
  let m := d.dom (d.clk d.tb.master)
  let lt := m.ltWord (((((m.posOf (sc % m.sM) : Nat) : Rat) - (micDelay c.preset d.pdm.clk : Rat) / 1000 * m.nominal
    + (m.cycle : Rat)).floor).toNat % m.cycle)
  d.record k (blockRec (4 * b2n silent) nf l.length lt sc mask (d.ring k).recSeq samples)

/-- PDM bits in a time of `us` µs (R229). -/
def pdmBits (clk us : Nat) : Nat := us * 192 * pdmRatio clk / 1000

/-- The bits of microphone `m` over a block pass its chain (R229): a faulty or settling one delivers zeros (R17, R321). Where
a DSYNC reset fell into the block its place follows from its uptime (R238; log entry 26). -/
def Dev.micStep (d : Dev) (m : Nat) (l : List Bool) : Dev :=
  let x := d.chain (96 + m)
  let y := d.mic m
  let k := min l.length (pdmBits d.pdm.clk (x.resetAt - d.pdm.blkAt))
  let a := x.micBlock (pdmRatio d.pdm.clk) y.faulty k l
  (d.setChain (96 + m) a.1).setMic m { y with buf := if y.faulty || y.settle ≠ 0 then List.replicate a.2.length 0 else a.2 }

/-- The microphones' bits of a block: their chains' outputs are kept for the transmit routes, and written or held for the MIC
rings (R81). -/
def Dev.micBlocks (d : Dev) (sc : Nat) (data : List (Nat × List Bool)) : Dev :=
  let d := d.forEach (maskList 32 d.pdm.mask) (fun m d => d.micStep m (((data.find? (fun p => p.1 = m)).map (·.2)).getD []))
  let d := { d with pdm := { d.pdm with blkAt := d.sys.uptime } }
  d.forEach ((d.rings.filter (fun p => p.2.type = 6 && p.2.st ≠ .disabled && p.2.st ≠ .draining)).map (·.1)) (fun k d => d.micBlock k sc)

end Sys2Proof.Machine
end

