-- ==== Sys2Proof/Machine/Flags.lean ====
section
/-! DEFINITION. Status computations: the records of GET_SUMMARY and CH_STATUS (R126–R131, R85), the firmware status mirror
(R410–R414). -/

namespace Sys2Proof.Machine

/-! ### Records of the summary (R127–R131) -/

/-- STATE of a channel record (R129, R220). -/
def ChSt.code : ChSt → Nat
  | .disabled => 0
  | .softStart | .identify | .switching | .softStop => 1
  | .hiz => 2
  | .latched => 3
  | .retry => 4

/-- HOLDS of a channel record (R129). -/
def Dev.holds (d : Dev) (n : Nat) : Nat :=
  b2n (d.chan n).mute + 2 * b2n (d.emg.isActive d.sys.uptime) + 4 * b2n ((d.mates n).any d.dieHold) + 8 * b2n d.fz.hold
    + 16 * b2n (d.pr (n / 2)).bridged

/-- The settings of a channel: the primary's for a bridged partner (R142, R224). -/
def Dev.setOf (d : Dev) (n : Nat) : Chan := if n % 2 = 1 && (d.pr (n / 2)).bridged then d.chan (n - 1) else d.chan n

/-- A temperature in 0.1 °C as 16 bits. -/
def t16 (x : Rat) : Nat := twos 16 (clampInt (-32768) 32767 (roundI (x * 10)))

/-- Channel record (R129). -/
def Dev.chanRec (d : Dev) (n : Nat) : List Nat :=
  let c := d.chan n
  let p := (d.setOf n).prot
  let dec : Bool := (d.chain n).expert || (d.chain (n + 48)).expert
  [ChSt.code c.st, d.holds n, b2n p.expert + 2 * b2n c.loopExpert + 4 * b2n dec, c.dom]
    ++ le 2 (twos 16 (d.setOf n).vol) ++ le 2 (twos 16 c.prot.pgain) ++ [c.prot.pcause % 256, c.diag.dclass % 256]
    ++ le 2 p.profile ++ le 2 (t16 p.tc) ++ le 2 (twos 16 (d.pr (n / 2)).temp) ++ le 4 p.rmeas
    ++ le 2 c.flt.retries ++ le 2 c.flt.code ++ le 8 c.flt.lt ++ le 4 c.flt.trips ++ le 4 c.loop.edgeErr
    ++ le 4 c.prot.credit ++ le 4 c.zctoCnt ++ le 4 c.basicIgn ++ List.replicate 76 0

/-- RESULT of CH_STATUS (R141). -/
def Dev.chResult (d : Dev) (n : Nat) : Nat :=
  let c := d.chan n
  ChSt.code c.st + 256 * d.holds n + 65536 * twos 16 c.prot.pgain + 2 ^ 32 * t16 (d.setOf n).prot.tc + 2 ^ 48 * (c.flt.code % 65536)

/-- Domain record (R128). -/
def Dev.domRec (d : Dev) (n : Nat) : List Nat :=
  let m := d.dom n
  let k := d.dom (d.clk n)
  let flags := b2n k.dbl + 2 * b2n (d.tb.pair && decide (n < 2)) + 4 * b2n k.failover + 8 * b2n m.genHold
    + 16 * b2n (d.tb.master = n) + 32 * b2n m.expert
  let hold := match k.holdAt with
    | some a => (d.sys.uptime - a) / 1000
    | none => 0
  [DomSt.code m.st, m.rate] ++ le 2 flags ++ le 2 k.lpf ++ le 2 (twos 16 (if d.tb.pair && decide (n < 2) then d.tb.offset else 0))
    ++ le 4 k.w ++ le 4 m.lpres ++ le 8 (if m.st = .disabled then m.scHold else d.scNow n) ++ le 8 (d.ltNow n)
    ++ le 2 m.cable ++ [0, 0] ++ le 4 hold ++ le 4 m.crcErr ++ le 4 m.fmtErr ++ le 4 m.rateErr ++ le 4 m.seqErr
    ++ le 4 m.pairMis ++ le 4 (twos 32 (roundI (k.freq * 1000))) ++ List.replicate 64 0

/-- Object record (R130). -/
def Dev.objRec (d : Dev) (o : Nat) : List Nat :=
  let x := d.obj o
  let parked := ((List.range 48).filter (fun n => d.isParked (48 * o + n))).length
  let st := if x.src = 0 || !x.played then 0 else if d.allParked o then 3 else if x.present then 1 else 2
  let gap : Bool := (x.ldly.isSome && (x.allGap || !x.gaps.isEmpty)) || x.noReg
  [st, b2n x.stale + 2 * b2n x.expert + 4 * b2n gap, x.dom, x.src] ++ le 2 x.bind ++ le 2 ((x.cur.map (·.gen)).getD 0)
    ++ le 8 x.scLast ++ le 2 parked ++ le 2 x.carried ++ le 4 x.underrun ++ le 4 x.bulk ++ le 4 x.basicIgn

/-- STATE of a port record. -/
def PortSt.code : PortSt → Nat
  | .off => 0 | .unlocked => 1 | .locked => 2

/-- Port record (R131). -/
def Dev.portRec (d : Dev) (p : Nat) : List Nat :=
  let t := d.port p
  [PortSt.code t.st, t.role, t.slots, t.width] ++ le 4 t.rx ++ le 4 t.tx ++ le 4 t.slipAdd ++ le 4 t.slipDrop
    ++ le 2 t.nonaudio ++ le 2 t.unlocks ++ le 4 (twos 32 t.ppb) ++ le 2 (t.rxring.getD 0xFFFF) ++ le 2 (t.txring.getD 0xFFFF)

/-- Mailbox state (R131). -/
def Dev.mbxRec (d : Dev) (ch : Nat) : List Nat :=
  let m := d.mbx ch
  [m.dnUsed, m.up.length] ++ le 2 (d.mbxStat false ch % 65536) ++ le 2 (m.cpl.getD 0xFFFF) ++ [m.vec, 0] ++ le 2 m.tmoMs
    ++ le 2 m.ovfCnt ++ le 2 m.discard ++ [0, 0]

/-- STATE of a ring (R68). -/
def RingSt.code : RingSt → Nat
  | .disabled => 0 | .running => 1 | .stalled => 2 | .error => 3 | .fenced => 4 | .draining => 5

/-- Ring state (R85). -/
def Dev.ringRec (d : Dev) (k : Nat) (hide : Bool) : List Nat :=
  let r := d.ring k
  let h := if r.hostProduced then r.tail else r.head
  if hide then List.replicate 8 0 ++ [r.type, RingSt.code r.st, 0, r.owner, 0, 0, 0, 0]
  else le 4 h ++ le 4 r.devIdx ++ [r.type, RingSt.code r.st, r.err, r.owner] ++ le 2 r.cntA ++ le 2 r.cntB

/-- Held completion of a tag (R128). -/
def Dev.heldRec (d : Dev) (t : Nat) : List Nat :=
  let g := d.tag t
  if g.st ≠ .held then List.replicate 16 0
  else le 2 g.status ++ le 2 g.opcode ++ le 2 (g.flags ||| 16) ++ [0, 0] ++ le 8 g.lt

/-- 64-byte bitmap of the tags that a condition picks. -/
def Dev.tagMap (d : Dev) (p : Nat → Tag → Bool) : List Nat := le 64 (listMask (d.tagsWith (fun _ => true) |>.filter (fun t => p t (d.tag t))))

/-- Tags of PF1 (R113). -/
def pf1Tag (t : Nat) : Bool := decide (400 ≤ t ∧ t < 496)

/-- Open faults that concern a function, with that function's SEQ (R124), by falling severity, then held events, marked
HELD, at most 256, and how many do not fit (R126). -/
def Dev.openList (d : Dev) (fn : Nat) : List Evt × Nat :=
  let mine := (d.faults.filter (fun e => (d.concerned e.1.code e.1.subject).contains fn)).map
    (fun e => if fn = 0 then e.1 else { e.1 with seq := e.2 })
  let l := sortBy (fun (e : Evt) => 3 - e.sev) mine ++ ((d.fn fn).held.map (fun e => { e with flags := e.flags ||| 2 }))
  (l.take 256, l.length - 256)

/-- Header of the summary (R127). -/
def Dev.sumHead (d : Dev) (sender : Nat) : List Nat :=
  let fn := fnOf sender
  let l := d.openList fn
  let seen := fun (t : Nat) => fn = 1 || !pf1Tag t
  let busy := (d.tagsWith (fun t => t.st ≠ .free)).filter seen
  let heldT := (d.tagsWith (fun t => t.st = .held)).filter seen
  let flags := d.sys.image + 2 * b2n (d.emg.isActive d.sys.uptime) + 4 * b2n d.emg.verm + 8 * b2n d.sys.flyStart.isSome
  le 4 1 ++ le 4 98304 ++ le 4 d.sys.epoch ++ le 4 d.sys.fw ++ le 8 d.cmLt ++ le 8 d.cmSc ++ [sender, d.tb.master]
    ++ le 2 flags ++ le 2 busy.length ++ le 2 heldT.length ++ le 2 l.1.length ++ le 2 (d.fn fn).evtLost ++ le 2 l.2
    ++ List.replicate 210 0

/-- The 96 KiB of GET_SUMMARY for a sender (R125, R126): records of PF1's resources are hidden from PF0. -/
def Dev.summary (d : Dev) (sender : Nat) : List Nat :=
  let fn := fnOf sender
  let hide := fn = 0
  let map := fun (p : Tag → Bool) => d.tagMap (fun t g => p g && !(hide && pf1Tag t))
  let evts := ((d.openList fn).1.map Evt.bytes).flatten
  d.sumHead sender ++ ((List.range 4).map d.domRec).flatten ++ map (fun g => g.st ≠ .free) ++ map (fun g => g.st = .held)
    ++ ((List.range 4).map d.portRec).flatten
    ++ ((List.range 64).map (fun ch => if hide && decide (ch < 8) then List.replicate 16 0 else d.mbxRec ch)).flatten
    ++ ((List.range 48).map d.chanRec).flatten ++ ((List.range 256).map d.objRec).flatten
    ++ evts ++ List.replicate (8192 - evts.length) 0
    ++ ((List.range 512).map (fun t => if hide && pf1Tag t then List.replicate 16 0 else d.heldRec t)).flatten
    ++ ((List.range 4096).map (fun k => d.ringRec k (hide && (d.ring k).owner = 1))).flatten

/-- A GET_SUMMARY is written and completes at a render block boundary: held events of the function and held completions
of the sender that it reports are released (R114, R125, R126). -/
def Dev.sumDone (d : Dev) (n : Nat) : Dev :=
  let t := d.tag n
  let fn := fnOf t.sender
  let d' := d.writeOut n 0 (d.summary t.sender)
  let opened := (d.faults.filter (fun e => (d.concerned e.1.code e.1.subject).contains fn)).length
  let d' := d'.updFn fn (fun f => { f with held := f.held.drop (256 - min 256 opened) })
  let free := d'.tagsWith (fun g => g.st = .held && g.sender = t.sender)
  let d' := d'.forEach free (fun k d => d.setTag k Tag.reset)
  (d'.updTag n (fun g => { g with ltDom := d.tb.master })).finish n OK d.cmLt 0

/-- Every GET_SUMMARY that is ACTIVE completes at this boundary. -/
def Dev.sumsDone (d : Dev) : Dev :=
  d.forEach (d.tagsInOrder (fun t => t.st = .active && t.ph = .sched && t.effs.isEmpty && t.cmd = some .getSummary && t.fin.isNone && t.outQ.isEmpty)) (fun n d => d.sumDone n)

/-- An uptime second of the render totals has ended (R417): its largest counts stand for the mirror, and where a context
was carried in it BUDGET_SHORT is raised (R186, R412). A second in which no block was rendered has none. -/
def Dev.secondEnd (d : Dev) : Dev :=
  let r := d.rend
  if d.sys.uptime < r.shortAt + 1000000 then d
  else
    let now := d.sys.uptime / 1000000 * 1000000
    let short : Bool := r.carriedMax ≠ 0
    let just : Bool := now = r.shortAt + 1000000
    let d := { d with rend := { r with
      shortAt := now, carriedLast := if just then r.carriedMax else 0, slotsLast := if just then r.slotsMax else 0,
      carriedMax := 0, slotsMax := 0, shortSec := if short then satInc (2 ^ 32 - 1) r.shortSec else r.shortSec } }
    if short then d.raise 0x0304 0 r.carriedMax else d

/-! ### Firmware status mirror (R410–R414) -/

/-- A gain in 1/256 dB as 16 bits. -/
def g16 (x : Rat) : Nat := twos 16 (gainDb x)

/-- Channel record of the mirror (R413). -/
def Dev.mirChan (d : Dev) (n : Nat) : List Nat :=
  let c := d.chan n
  let p := c.prot
  le 4 c.loop.modClip ++ le 2 (c.f0 / 10) ++ le 2 c.q ++ le 2 (t16 p.tm) ++ le 2 (t16 p.tf) ++ le 2 (t16 p.ta)
    ++ le 2 (roundI (p.fhp * 10)).toNat ++ le 4 p.rmeas ++ le 2 (g16 p.gx) ++ le 2 (g16 p.gt) ++ le 2 (g16 p.gp)
    ++ le 2 (g16 p.gf) ++ le 2 (g16 p.gr) ++ le 2 (g16 p.gc) ++ le 2 p.rejects ++ le 2 p.fclamp ++ le 2 p.xlim
    ++ le 2 p.vclamp ++ le 2 p.railOver ++ le 2 c.busClip ++ [b2n c.idRan + 2 * b2n c.idOk] ++ List.replicate 19 0

/-- Chain record of the mirror (R414). -/
def Dev.mirChain (d : Dev) (c : Nat) : List Nat :=
  let x := d.chain c
  let inv : Bool := if c < 96 then !d.tapValid (c % 48) x.preset else false
  le 4 (twos 32 (roundI (x.e * 2147483648))) ++ [x.active, b2n x.cmdFreeze + 2 * b2n x.intFreeze + 4 * b2n inv
    + 8 * b2n x.expert + 16 * x.preset] ++ le 2 x.ovl

/-- Scene-stream record of the mirror (R412). -/
def Dev.mirStream (d : Dev) (r : Nat) : List Nat :=
  let s := d.stream r
  le 4 s.applied ++ le 4 s.missed ++ le 4 s.lateDrop ++ le 4 s.badFrame ++ le 4 s.badRec ++ le 4 s.staleRej ++ le 4 s.clamped
    ++ le 4 s.foreign ++ le 4 s.lateApply ++ [b2n s.en, s.p] ++ le 2 (s.ring.getD 0xFFFF) ++ List.replicate 24 0

/-- Render totals of the mirror (R412). -/
def Dev.mirRend (d : Dev) : List Nat :=
  le 2 d.rend.carriedLast ++ le 2 ((List.range 12288).filter d.isParked).length ++ le 4 d.rend.slotsLast
    ++ le 4 d.reservation ++ le 4 d.rend.shortSec ++ List.replicate 48 0

/-- Port record of the mirror (R412). -/
def Dev.mirPort (d : Dev) (p : Nat) : List Nat :=
  let t := d.port p
  le 4 t.slipForced ++ le 4 t.frameErr ++ le 4 t.zctoCnt ++ le 4 0

/-- Object record of the mirror (R414). -/
def Dev.mirObj (d : Dev) (o : Nat) : List Nat :=
  let l := (List.range 48).map (fun n => d.ctx (48 * o + n))
  le 2 ((l.map (·.carry)).foldl max 0) ++ le 2 ((l.map (·.reach)).foldl max 0)

/-- A whole copy, from offset 0x8000 (R410); the pilot registers' window inside it is zero here. -/
def Dev.mirrorBytes (d : Dev) (seq : Nat) : List Nat :=
  let head := le 4 seq ++ le 4 d.sys.epoch ++ le 8 d.cmLt ++ le 4 d.sys.fw
    ++ ((List.range 6).map (fun k => le 4 (Tab.get 0 d.sbe (k + 1)))).flatten ++ List.replicate 20 0
  head ++ d.mirRend ++ List.replicate 128 0 ++ ((List.range 4).map d.mirStream).flatten
    ++ ((List.range 4).map d.mirPort).flatten ++ List.replicate 448 0 ++ ((List.range 48).map d.mirChan).flatten
    ++ ((List.range 128).map d.mirChain).flatten ++ ((List.range 256).map d.mirObj).flatten ++ List.replicate 6144 0
    ++ (List.range 12288).map (fun c => min 15 (d.ctx c).carry + 16 * min 15 (d.ctx c).reach)

end Sys2Proof.Machine
end

