-- ==== Sys2Proof/Machine/Locks.lean ====
section
/-! DEFINITION. The lock file (R104–R108). -/

namespace Sys2Proof.Machine

/-- Number of a master ID (R8). -/
def masterId : Master → Nat
  | .internal => 1 | .pf0 => 2 | .pf1 => 3 | .sideband => 4 | .debug => 5

/-- The owner of a lock, 0 while it is free. -/
def Locks.who (l : Locks) (n : Nat) : Nat := Tab.get 0 l.owner n

/-- A lock write that is ignored and counted (R105). -/
def Locks.ignore (l : Locks) : Locks := { l with ignored := satInc 65535 l.ignored }

/-- The lock with another owner; 0 frees it. -/
def Locks.give (l : Locks) (n m : Nat) : Locks := { l with owner := Tab.set l.owner n m }

/-- Value of an aligned read of LCK_n before it acquires anything (R105). -/
def Locks.value (l : Locks) (n : Nat) : Nat := if l.who n = 0 then 0 else 0x80000000 + l.who n

/-- Bits of LCK_HELD (R104). -/
def Locks.held (l : Locks) : Nat := listMask ((List.range 32).filter (fun n => l.who n ≠ 0))

/-- LCK_OWNk (R104). -/
def Locks.own (l : Locks) (k : Nat) : Nat :=
  (List.range 8).foldl (fun a m => a + l.who (8 * k + m) * 16 ^ m) 0

/-- The master can reach the lock file: a function over its link (R66), any master while the engines run, the two-wire
port always (R360, R370). -/
def Dev.reaches (d : Dev) (m : Master) : Bool :=
  match m with
  | .pf0 | .pf1 => d.live && d.link.up
  | .sideband => !d.sys.por
  | _ => d.live

/-- An acquiring read of LCK_n by a master (R105); frozen or in reset nothing is acquired (R360, R370). -/
def State.lockRead (s : State) (m n : Nat) : State :=
  let d := s.dev.answer (le 4 (s.locks.value n))
  if s.locks.who n = 0 && s.dev.live then { s with locks := s.locks.give n m, dev := d } else { s with dev := d }

/-- A lock write: release by the owner, forced release by PF1, else ignored and counted (R105, R108). -/
def State.lockWrite (s : State) (m n v : Nat) : State :=
  let o := s.locks.who n
  if v = m && o = m then { s with locks := s.locks.give n 0 }
  else if m = 3 && v = 0x100 + o && o ≠ 0 then
    { s with locks := { s.locks.give n 0 with forced := satInc 65535 s.locks.forced },
             dev := s.dev.alarm 0x010C n o }
  else { s with locks := s.locks.ignore }

/-- The locks a master holds. -/
def Locks.heldBy (l : Locks) (m : Nat) : List Nat := (List.range 32).filter (fun n => l.who n = m)

/-- A reset of a master releases its locks, each with an event and a record (R107). -/
def State.releaseAll (s : State) (m : Nat) : State :=
  (s.locks.heldBy m).foldl (fun s n => { s with locks := s.locks.give n 0, dev := s.dev.alarm 0x010B n m }) s

/-- LOCK_ACQUIRE_READ: an aligned 32-bit read of LCK_n (R105). -/
def execLockAcquireRead (m : Master) (n : Nat) (s : State) : Host.Outcome State Fault Refusal :=
  .next (if s.dev.reaches m && n < 32 then s.lockRead (masterId m) n else s)

/-- LOCK_RELEASE: a write of LCK_n with a master's own ID; any other value is ignored and counted (R105). -/
def execLockRelease (m : Master) (n v : Nat) (s : State) : Host.Outcome State Fault Refusal :=
  .next (if s.dev.reaches m && s.dev.live && n < 32 then s.lockWrite (masterId m) n (v % 2 ^ 32) else s)

/-- LOCK_FORCE: a write of 0x01nn to LCK_n (R108). -/
def execLockForce (m : Master) (n nn : Nat) (s : State) : Host.Outcome State Fault Refusal :=
  .next (if s.dev.reaches m && s.dev.live && n < 32 then s.lockWrite (masterId m) n (0x100 + nn % 256) else s)

end Sys2Proof.Machine
end

