-- ==== Sys2Proof/Machine/Mordant.lean ====
section
/-! DEFINITION. The Mordant record (R350–R357): records and areas, the supply's fall, clearing, the read window, and the
Mordant commands (R156). -/

namespace Sys2Proof.Machine

/-! ### Records (R350) -/

/-- One bit of the reflected IEEE 802.3 CRC-32. -/
def crcBit (c : Nat) : Nat := if c % 2 = 1 then (c / 2) ^^^ 0xEDB88320 else c / 2

/-- CRC-32 with the IEEE 802.3 polynomial over bytes (R350). -/
def crc32 (bytes : List Nat) : Nat :=
  (bytes.foldl (fun c b => (List.range 8).foldl (fun c _ => crcBit c) (c ^^^ b)) 0xFFFFFFFF) ^^^ 0xFFFFFFFF

/-- The first `n` bytes of a list, zeros beyond its end. -/
def padTo (n : Nat) (l : List Nat) : List Nat := l.take n ++ List.replicate (n - l.length) 0

/-- The 64 bytes of a record (R350). -/
def MRec.bytes (r : MRec) : List Nat :=
  let b := le 4 r.seq ++ le 2 r.kind ++ le 2 r.subject ++ le 8 r.lt ++ le 6 r.uptime ++ [r.sev, r.origin]
    ++ padTo 32 r.data ++ le 4 r.epoch
  b ++ le 4 (crc32 b)

/-- Slots of the ring area (R352). -/
def ringSlots : Nat := 131072

/-- Write one record to MRAM (R352): the ring's next slot, and, for SEV 2 or 3, a first-fault copy while a slot is free. -/
def Dev.writeRec (d : Dev) (r : MRec) : Dev :=
  let v := d.nvm
  let r := { r with seq := v.next }
  let v := { v with ring := Tab.set v.ring (v.next % ringSlots) r, next := (v.next + 1) % 2 ^ 32 }
  let v :=
    if r.sev % 4 < 2 then v
    else if v.ff.length < 1024 then { v with ff := Tab.set v.ff v.ff.length { r with sev := r.sev % 4 + 128 } }
    else { v with ffDropped := satInc 65535 v.ffDropped }
  { d with nvm := v }

/-- A record made now, outside the queue. -/
def Dev.recNow (d : Dev) (kind subject origin : Nat) (data : List Nat) : MRec :=
  { seq := 0, kind := kind, subject := subject, lt := d.cmLt, uptime := d.sys.uptime, sev := 0, origin := origin,
    data := data, epoch := d.sys.epoch }

/-- The fault supervisor writes the oldest queued record (R353). -/
def Dev.writeNext (d : Dev) : Dev :=
  match d.mdt.queue with
  | [] => d
  | r :: t => ({ d with mdt := { d.mdt with queue := t } } : Dev).writeRec r

/-- Every queued record is written. -/
def Dev.flush (d : Dev) : Dev := d.mdt.queue.foldl (fun (d : Dev) (_ : MRec) => d.writeNext) d

/-- MORDANT_WRITE: the next queued record goes to MRAM, unless writes are inhibited (R353, R354). -/
def execMordantWrite (s : State) : Host.Outcome State Fault Refusal :=
  .next (s.onLive (fun d => if d.sys.mramOff then d else d.writeNext))

/-- SUPPRESSION_SECOND_END: a full second has passed since the last suppressed record of a KIND and SUBJECT (R353). -/
def execSuppressionSecondEnd (kind subject : Nat) (s : State) : Host.Outcome State Fault Refusal :=
  .next (s.onLive (fun d =>
    match d.mdt.sup.find? (fun p => p.kind = kind && p.subject = subject) with
    | none => d
    | some p =>
      if p.supp = 0 || decide (d.sys.uptime < p.lastAt + 1000000) then d
      else
        let rest := d.mdt.sup.map (fun q => if q.kind = kind && q.subject = subject then { q with supp := 0 } else q)
        ({ d with mdt := { d.mdt with sup := rest } } : Dev).mordant 0x0F09 kind 0 0 (le 2 subject ++ le 4 p.supp)))

/-! ### The supply falls (R354) -/

/-- VDD_3V3_LOW: below 3.0 V the queue is written, then POWER_FAIL, and MRAM writes are inhibited; not while frozen or in
power-on reset (R19, R354). -/
def execVdd3v3Low (s : State) : Host.Outcome State Fault Refusal :=
  .next (if s.dev.fz.frozen || s.dev.sys.por || s.dev.sys.v3Low.isSome then s
    else s.onDev (fun d =>
      let d' := d.flush
      let d' := d'.writeRec (d'.recNow 0x0F02 0 0 (0 :: le 4 d.mdt.queue.length))
      { d' with sys := { d'.sys with v3Low := some d.sys.uptime, mramOff := true } }))

/-- VDD_3V3_RECOVER: above 3.05 V before 100 µs have passed, operation continues; writes resume with a POWER_FAIL record
whose byte 0 is 1 (R354). -/
def execVdd3v3Recover (s : State) : Host.Outcome State Fault Refusal :=
  .next (match s.dev.sys.v3Low with
    | none => s
    | some at_ =>
      if s.dev.fz.frozen || s.dev.sys.por || at_ + 100 ≤ s.dev.sys.uptime then s
      else s.onDev (fun d =>
        let d := { d with sys := { d.sys with v3Low := none, mramOff := false } }
        d.writeRec (d.recNow 0x0F02 0 0 (1 :: le 4 0))))

/-! ### Clearing (R355) -/

/-- A record is older than a SEQ. -/
def olderThan (seq mark : Nat) : Bool := decide (0 < (mark + 2 ^ 32 - seq) % 2 ^ 32 ∧ (mark + 2 ^ 32 - seq) % 2 ^ 32 < 2 ^ 31)

/-- The first-fault records that an erase leaves, from slot 0 (log entry 33). -/
def keepFf (ff : Tab MRec) (mark : Nat) : Tab MRec :=
  let l := (ff.filter (fun p => !olderThan p.2.seq mark)).map (·.2)
  (List.range l.length).zip l

/-- The erase of the areas that a mark names has ended (R355): the records older than its SEQ are gone; CLEAR, the clear
count, MORDANT_CLEARED, and the command completes. -/
def Dev.cleared (d : Dev) : Dev :=
  match d.nvm.clearing with
  | none => d
  | some (areas, mark, tag) =>
    let v := d.nvm
    let ring := if bit areas 1 then v.ring.filter (fun p => !olderThan p.2.seq mark) else v.ring
    let ff := if bit areas 0 then keepFf v.ff mark else v.ff
    let gone := (v.ring.length - ring.length) + (v.ff.length - ff.length)
    let v := { v with ring := ring, ff := ff, clears := (v.clears + 1) % 65536, clearing := none,
                      ffDropped := if bit areas 0 then 0 else v.ffDropped }
    let d := ({ d with nvm := v } : Dev).mordant 0x0F05 areas 0 3 (le 4 gone ++ le 2 v.clears)
    let d := d.raise 0x0901 areas gone
    match tag with
    | some t => d.complete t
    | none => d

/-- MORDANT_CLEAR_DONE (R355). -/
def execMordantClearDone (s : State) : Host.Outcome State Fault Refusal :=
  .next (s.onLive (fun d => if d.sys.mramOff then d else d.cleared))

/-- MORDANT_CLEAR: the mark is set; the records in force at acceptance will be erased (R153, R355); an export of the same
area ends at the next block (R162). -/
def applyMordantClear (d : Dev) (tag areas : Nat) : Dev :=
  let same := d.exports.filter (fun x => bit areas x.area)
  let d := d.forEach (same.map (·.tag)) (fun n d => d.updTag n (fun t => { t with cancelAt := true }))
  ({ d with nvm := { d.nvm with clearing := some (areas, d.nvm.next, some tag) } } : Dev).updTag tag
    (fun t => { t with ph := .ending })

/-! ### The read window (R357) -/

/-- The record that an area holds under a SEQ or an index. -/
def Nvm.recAt (v : Nvm) (area n : Nat) : Option MRec :=
  if area = 0 then (v.ring.find? (fun p => p.1 = n % ringSlots && p.2.seq = n)).map (·.2)
  else (v.ff.find? (fun p => p.1 = n)).map (·.2)

/-- MDT_WSEL of a path: a load of 64 records starts (R357). -/
def Dev.mdtLoad (d : Dev) (path from_ : Nat) : Dev :=
  d.updPath path (fun p => { p with wsel := from_, wload := p.warea, wbusy := true, wvalid := false, wover := false,
                                    wcount := 0, wrecs := [] })

/-- The load of a path ends (R357): the records that exist, and whether record FROM is gone. -/
def Dev.mdtLoaded (d : Dev) (path : Nat) : Dev :=
  let p := d.path path
  let recs := (List.range 64).filterMap (fun i =>
    (d.nvm.recAt p.wload ((p.wsel + i) % 2 ^ 32)).map (fun r => (i, r)))
  let gone := p.wload = 0 && olderThan p.wsel d.nvm.next && (d.nvm.recAt 0 p.wsel).isNone
  d.setPath path { p with wbusy := false, wvalid := true, wover := gone, wcount := recs.length, wrecs := recs }

/-- A Mordant window access over this path is served: the two-wire port also while frozen and during PERST_N (R360,
R370). -/
def Dev.mdtPath (d : Dev) (p : Path) : Bool :=
  match p with
  | .tw => !d.sys.por
  | _ => d.live && d.link.up

/-- MORDANT_WINDOW_LOAD: a write of MDT_WSEL (R357). -/
def execMordantWindowLoad (p : Path) (from_ : Nat) (s : State) : Host.Outcome State Fault Refusal :=
  .next (if s.dev.mdtPath p then s.onDev (fun d => d.mdtLoad (pathNo p) (from_ % 2 ^ 32)) else s)

/-- MORDANT_WINDOW_LOADED: the load of a path's aperture ends (R357). -/
def execMordantWindowLoaded (p : Path) (s : State) : Host.Outcome State Fault Refusal :=
  .next (if (s.dev.path (pathNo p)).wbusy && !s.dev.sys.por then s.onDev (fun d => d.mdtLoaded (pathNo p)) else s)

/-- Bytes of a path's aperture record; zeros where it is absent or a load runs (R357). -/
def PathR.apRec (p : PathR) (i : Nat) : List Nat :=
  if p.wbusy then List.replicate 64 0
  else match p.wrecs.find? (fun q => q.1 = i) with
    | some q => q.2.bytes
    | none => List.replicate 64 0

/-! ### Commands (R156) -/

/-- MDT_INFO: ring records ever written, first-fault records used, clears performed (R156). -/
def Dev.mdtInfo (d : Dev) : Nat := d.nvm.next + d.nvm.ff.length * 2 ^ 32 + d.nvm.clears * 2 ^ 48

/-- MDT_EXPORT: a RUNNING LOG ring of the sender (R156). -/
def checkMdtExport (d : Dev) (sender area from_ count k : Nat) : Option Nat :=
  let r := d.ring k
  firstFail [(r.st ≠ .disabled && r.owner ≠ fnOf sender, NOT_PERMITTED),
    (out area 0 1 || out count 1 131072 || (area = 0 && out from_ 0 1023) || out k 0 4095
      || (r.st ≠ .disabled && r.type ≠ 12), OUT_OF_RANGE),
    (r.st ≠ .running, BUSY)]

/-- MDT_EXPORT starts (R156, R356). -/
def applyMdtExport (d : Dev) (tag area from_ count k : Nat) : Dev :=
  let x : Export := { tag := tag, area := area, from_ := from_, left := count, ring := k, sent := 0, skipped := 0,
                      lt := d.cmLt }
  ({ d with exports := d.exports ++ [x] } : Dev).updTag tag (fun t => { t with ph := .long })

/-- One record of an export (R356): copied, or skipped and counted. AREA 1 of MDT_EXPORT is the ring. -/
def Dev.exportOne (d : Dev) (x : Export) : Dev × Export :=
  let x' := { x with from_ := (x.from_ + 1) % 2 ^ 32, left := x.left - 1 }
  match d.nvm.recAt (1 - x.area) x.from_ with
  | none => (d, { x' with skipped := x.skipped + 1 })
  | some r =>
    let d' := d.record x.ring r.bytes
    (d', if (d'.ring x.ring).cntA = (d.ring x.ring).cntA then { x' with sent := x.sent + 1 } else x')

/-- An export goes on by one record while its ring runs, and ends with its last (R156, R356). -/
def Dev.exportStep (d : Dev) (x : Export) : Dev :=
  let r := d.ring x.ring
  let rest := d.exports.filter (fun y => y.tag ≠ x.tag)
  if (d.tag x.tag).st ≠ .active then { d with exports := rest }
  else if !d.sys.ready || d.sys.mramOff || !(r.st = .running || r.st = .stalled) then d
  else
    let y := d.exportOne x
    if y.2.left = 0 then
      (({ y.1 with exports := rest } : Dev).updTag x.tag (fun t => { t with ltDom := d.tb.master })).finish
        x.tag OK x.lt (y.2.sent + y.2.skipped * 2 ^ 32)
    else { y.1 with exports := y.1.exports.map (fun z => if z.tag = x.tag then y.2 else z) }

/-- Every export goes on. -/
def Dev.exportsStep (d : Dev) : Dev := d.exports.foldl (fun d x => d.exportStep x) d

/-- Register path that a sender's master ID stands for: PF0, PF1, the sideband port. -/
def senderPath (sender : Nat) : Nat := sender - 2

/-- MDT_NOTE: more than ten of a sender within a second give BUSY (R156). -/
def checkMdtNote (d : Dev) (sender : Nat) : Option Nat :=
  let recent := (d.path (senderPath sender)).notes.filter (fun t => decide (d.sys.uptime < t + 1000000))
  if 10 ≤ recent.length then some BUSY else none

/-- MDT_NOTE: an annotation record (R156, R351). -/
def applyMdtNote (d : Dev) (sender code : Nat) (data : List Byte) : Dev :=
  let now := d.sys.uptime
  (d.updPath (senderPath sender) (fun p =>
    { p with notes := now :: p.notes.filter (fun t => decide (now < t + 1000000)) })).mordant
    0x0F06 code 0 sender (bytesOf data)

end Sys2Proof.Machine
end

