-- ==== Sys2Proof/Machine/Link.lean ====
section
/-! DEFINITION. The host link and the functions: function-level reset (R65, R84, R101, R107), link training and link down
(R49, R66), ASPM (R47), MSI-X unmasking (R408), and errors of the on-die memories (R10, R64). -/

namespace Sys2Proof.Machine

/-! ### Function-level reset (R58, R65) -/

/-- A tag's command came through a mailbox channel. -/
def Tag.byMbx (t : Tag) : Bool :=
  match t.hdr with
  | some h => (match h.via with | .mbx _ => true | _ => false)
  | none => false

/-- A record that is dropped with its sender's reset: a Mordant record says so and the tag returns (R101, R114). -/
def Dev.dropRecord (d : Dev) (n : Nat) : Dev :=
  let t := d.tag n
  (d.mordant 0x0F07 n 0 t.sender (le 2 t.opcode ++ le 2 0x0202 ++ le 2 t.status ++ le 8 t.lt)).setTag n Tag.reset

/-- The mailbox commands of a function that has been reset (R101, R114): records not delivered are dropped; running
commands are marked. -/
def Dev.senderGone (d : Dev) (fn : Nat) : Dev :=
  let mine : Tag → Bool := fun t => t.sender = fn + 2 && t.byMbx
  let d := d.forEach (d.tagsWith (fun t => mine t && (t.st = .done || t.st = .held))) (fun n d => d.dropRecord n)
  let d := { d with tags := Tab.mapAll (fun (_ : Nat) (t : Tag) =>
    if mine t && t.st = TagSt.active then { t with drop := true } else t) d.tags }
  let lost : Tless → Bool := fun x => x.fn = fn && x.ch.isSome
  let d := (d.tless.filter lost).foldl (fun d x => d.mordant 0x0F07 x.tag 0 (fn + 2)
    (le 2 x.opcode ++ le 2 0x0202 ++ le 2 x.status ++ le 8 0)) d
  { d with tless := d.tless.filter (fun x => !lost x) }

/-- The stalls of a function end without records; a command whose transfer stalled ends with BAD_POINTER, as one whose
read the fence drops (R58, R65, R116). -/
def Dev.stallsGone (d : Dev) (fn : Nat) : Dev :=
  let l := d.trn.stalls.filter (fun e => e.fn = fn)
  let d := { d with trn := { d.trn with stalls := d.trn.stalls.filter (fun e => e.fn ≠ fn) } }
  l.foldl (fun d e =>
    if 0x1000 ≤ e.stream ∧ e.stream < 0x1200 then d.fail (e.stream - 0x1000) BAD_POINTER
    else if e.stream = 0x1300 then d.internalFail BAD_POINTER
    else d) d

/-- A ring of a function that has been reset (R79, R84): FENCED, its held records discarded; a RING_DESTROY that drained it
completes with CANCELLED (R86). -/
def Dev.fenceRing (d : Dev) (k : Nat) : Dev :=
  let r := d.ring k
  let d := (d.setRing k { r with st := .fenced, staged := [], armed := false, endTag := none }).recall k
  let d := match d.srcObj k with
    | some o => d.updObj o (fun a => { a with staged := [], wait := if r.endTag.isSome then none else a.wait,
                                              ending := a.ending && r.endTag.isNone })
    | none => d
  match r.endTag with
  | some t => d.fail t CANCELLED
  | none => d

/-- Reset of a function by function-level reset or link down (R58, R65, R84, R101): registers, fence, stalls, rings,
channels, commands. -/
def Dev.fnReset (d : Dev) (fn : Nat) : Dev :=
  let f := d.fn fn
  let d := d.setFn fn { Fn.reset with fenced := true, ifenced := decide (fn = 1), held := f.held, evtLost := f.evtLost }
  let d := d.updPath fn (fun p => { p with ePartial := 0, eDb := 0, eMbx := 0, eReg := 0,
                                           latch := [none, none, none, none, none, none] })
  let d := d.stallsGone fn
  let mine := fun (st : Nat) => d.streamFn st = fn
  let d := { d with trn := { d.trn with reads := d.trn.reads.filter (fun x => !mine x.stream),
                                        poison := d.trn.poison.filter (fun p => !mine p.1) } }
  let d := if fn = 1 && d.copying.isSome then d.internalFail BAD_POINTER else d
  let rings := (d.rings.map (·.1)).filter (fun k => (d.ring k).owner = fn && (d.ring k).st ≠ .disabled)
  let d := d.forEach rings (fun k d => d.fenceRing k)
  let d := d.forEach (mbxsOf fn) (fun ch d => d.updMbx ch Mbx.ownerReset)
  d.senderGone fn

/-- The same with the locks the function's master holds (R107). -/
def State.fnReset (s : State) (fn : Nat) : State := (s.onDev (fun d => d.fnReset fn)).releaseAll (fn + 2)

/-- FUNCTION_LEVEL_RESET of PF0 or PF1 (R65). -/
def execFunctionLevelReset (fn : Nat) (s : State) : Host.Outcome State Fault Refusal :=
  .next (if s.dev.live && s.dev.link.up && fn < 2 then s.fnReset fn else s)

/-! ### The link (R47, R49, R66) -/

/-- Some ISOCHRONOUS ring is running. -/
def Dev.isoRuns (d : Dev) : Bool := d.rings.any (fun p => p.2.iso && (p.2.st = .running || p.2.st = .stalled))

/-- The LTR latency tolerance in µs that the device reports, snooped and non-snooped (R47). -/
def Dev.ltrUs (d : Dev) : Nat := if d.isoRuns then 20 else 1000

/-- An LTR message leaves where the tolerance differs from the one last reported (R47). -/
def Dev.ltrSync (d : Dev) : Dev :=
  if d.link.up && d.link.ltr ≠ d.ltrUs then
    let d := d.emit (.ltr d.ltrUs)
    { d with link := { d.link with ltr := d.ltrUs } }
  else d

/-- The link trains: the speed and width stand, and LINK_SHORT is raised where the usable rate is short (R49). -/
def Dev.trained (d : Dev) (speed width : Nat) : Dev :=
  let u := usableRate speed width
  let short := shortOf u d.link.rdRes d.link.wrRes
  let d := { d with link := { d.link with up := true, speed := speed, width := width, short := short, l1 := false, ltr := 0, lastReq := d.sys.uptime } }
  let d := d.ltrSync
  if short then d.linkShort u else d

/-- LINK_TRAINED: training or retraining to 2.5, 5, 8 or 16 GT/s (1–4) at x1 or x2 (R42, R49). -/
def execLinkTrained (speed width : Nat) (s : State) : Host.Outcome State Fault Refusal :=
  .next (s.onLive (fun d =>
    if out speed 1 4 || out width 1 2 then d else d.trained speed width))

/-- What configuration space reports for a function, whatever the firmware (R43): vendor, device, revision, class code,
subsystem vendor and subsystem. -/
def pciId (fn : Nat) : List Nat := [0x1F3B, 0x4832, 0x11, 0x040100, 0x1F3B, if fn = 0 then 1 else 2]

/-- Both functions are reset at once and the link is down (R66). -/
def State.linkLost (s : State) : State :=
  let s := s.onDev (fun d => { d with link := { d.link with up := false, l1 := false } })
  (s.fnReset 0).fnReset 1

/-- LINK_DOWN: surprise down 0, retraining failure 1, loss of REFCLK 2; a LINK_DOWN record is written (R66, R351). -/
def execLinkDown (cause : Nat) (s : State) : Host.Outcome State Fault Refusal :=
  .next (if s.dev.live && s.dev.link.up then
    (s.onDev (fun d => d.mordant 0x0F0B 0 0 0 [cause, b2n d.isoRuns])).linkLost
  else s)

/-- ASPM_L1_ENTRY: the device initiates L1 once it has been idle for 10 µs with no request outstanding, unless an
ISOCHRONOUS ring runs (R47). -/
def execAspmL1Entry (s : State) : Host.Outcome State Fault Refusal :=
  .next (s.onLive (fun d =>
    if d.link.up && !d.isoRuns && d.trn.reads.all (·.taken) && decide (d.link.lastReq + 10 ≤ d.sys.uptime) then { d with link := { d.link with l1 := true } } else d))

/-! ### MSI-X (R408, R415) -/

/-- Messages that masks no longer hold back go out and their pending bits clear (R408). -/
def Dev.msixFlush (d : Dev) (fn : Nat) : Dev :=
  d.forEach (maskList 128 (d.fn fn).pba) (fun v d =>
    let f := d.fn fn
    if f.masked v || !f.msixEn then d
    else (d.setFn fn { f with pba := f.pba - 2 ^ v }).msix fn v)

/-- A write of word `k` of a function's MSI-X table (R415): of a vector control word only the mask bit is kept. -/
def Dev.msixWrite (d : Dev) (fn k v : Nat) : Dev :=
  (d.updFn fn (fun f => { f with msix := Tab.set f.msix k (if k % 4 = 3 then v % 2 else v % 2 ^ 32) })).msixFlush fn

/-- MSI-X Message Control: bit 15 Enable, bit 14 Function Mask (log entry 13). -/
def Dev.msixControl (d : Dev) (fn v : Nat) : Dev :=
  (d.updFn fn (fun f => { f with msixEn := bit v 15, fmask := bit v 14 })).msixFlush fn

/-- MSIX_UNMASK: a write that clears the mask bit of vector `v`, or (none) Message Control with Enable set and Function
Mask clear (R408). -/
def execMsixUnmask (fn : Nat) (vec : Option Nat) (s : State) : Host.Outcome State Fault Refusal :=
  .next (s.onLive (fun d =>
    if !d.link.up || 2 ≤ fn then d
    else match vec with
      | some v => if v < 128 then d.msixWrite fn (4 * v + 3) 0 else d
      | none => d.msixControl fn 0x8000))

/-! ### On-die memories (R10, R64) -/

/-- A context parks after an error: it ramps to silence over the coming block, with CTX_PARKED_FAULT (R64). -/
def Dev.parkFault (d : Dev) (c store : Nat) (own : Bool) : Dev :=
  let x := d.ctx c
  let d := d.setCtx c (if own then { x with fault := true, fade := !x.parked } else { x with fade := !x.parked })
  d.raiseIn (d.obj (c / 48)).dom 0x0306 c store 0

/-- Contexts with a shape in force or pending. -/
def Dev.usersOf (d : Dev) (k : Nat) : List Nat :=
  (d.ctxs.filter (fun p => p.2.shape = some k || p.2.shapeT = some k)).map (·.1)

/-- The staged data of a stream at an address came from host memory: it does for rings that the device reads, a notice and
the processor, for a long-delay ring where the address is not the one that it writes next, for a command until its payload
has come (R64; log entry 34). -/
def Dev.inbound (d : Dev) (st iova : Nat) : Bool :=
  if st < 0x1000 then
    let r := d.ring st
    r.hostProduced || (r.type = 2 && decide (iova ≠ r.slotAddr r.tail))
  else if st < 0x1200 then (d.tag (st - 0x1000)).cmd.isNone
  else true

/-- One of the entries in staging for a stream is lost: `k` tells which, since the manual does not say how a word of the
store belongs to one (free; log entry 34). -/
def Dev.stagedLost (d : Dev) (st k : Nat) : Dev :=
  let r := d.ring st
  if 0x1000 ≤ st then d
  else match r.type with
    | 1 => d.updObj r.bind (fun o => if o.src = 1 && o.bind = st then { o with staged := o.staged.eraseIdx (k % max 1 o.staged.length), ue := true } else o)
    | 2 => d.updObj r.bind (fun o => if o.ldly = some st then { o with hist := o.hist.eraseIdx (k % max 1 o.hist.length) } else o)
    | _ => if r.hostProduced then d.updRing st (fun r => { r with staged := r.staged.eraseIdx (k % max 1 r.staged.length) }) else d

/-- The object that plays from a ring loses its source at once. -/
def Dev.objCut (d : Dev) (k : Nat) : Dev :=
  match d.srcObj k with
  | some o => d.objOff o
  | none => d

/-- What an uncorrectable error of a store does to its data (R64): 1 an object's history, whose bad word reads as the sample
before it until it is overwritten (DESIGN CHOICE, log entry 64: its place is a free value below 2048, so that new data
overwrite it up to 2048 samples later); 2 a shape; 3 a context; 4 staging, whose data is absent or
leaves with EP set; 5 a ring's descriptor; 6 the processor. -/
def Dev.ueEffect (d : Dev) (store index word iova : Nat) : Dev :=
  match store with
  | 1 =>
    let k := d.drawn Config.freeNat
    let i := k.1 % 2048
    k.2.updObj index (fun o => if o.src = 0 then o else
      { o with bad := 6144 - i, line := o.line.set i ((o.line[i + 1]?).getD 0) })
  | 2 => (d.updShape index (fun x => { x with bad := true })).forEach (d.usersOf index) (fun c d => d.parkFault c 2 false)
  | 3 => d.parkFault index 3 true
  | 4 =>
    if d.inbound index iova then
      let k := d.drawn Config.freeNat
      k.2.stagedLost index k.1
    else { d with trn := { d.trn with poison := (index, iova) :: d.trn.poison } }
  | 5 =>
    (match (d.ring index).st with
     | .running | .stalled => d.ringError index 3
     | .draining => ((d.ringError index 3).objCut index).destroyed index
     | _ => d)
  | 6 => { d with restartReq := some 3, sys := { d.sys with ueWord := some word } }
  | _ => d

/-- Instances of a store. -/
def ueInstances (store : Nat) : Nat :=
  match store with
  | 1 => 256 | 2 => 1024 | 3 => 12288 | 4 => 0x1301 | 5 => 4096 | _ => 1

/-- Stream that the record of a store's error names: the ring, the stream staged for, else the processor's (log entry 34). -/
def ueStream (store index : Nat) : Nat := if store = 4 ∨ store = 5 then index else 0x1300

/-- SRAM_UE: an uncorrectable error in store `store`, of instance `index`, at word address `word`; `iova` is where the data
was bound, or 0 (R57, R64). The record of a processor SRAM error follows the restart. -/
def execSramUe (store index word iova : Nat) (s : State) : Host.Outcome State Fault Refusal :=
  .next (s.onLive (fun d =>
    if out store 1 6 || ueInstances store ≤ index then d
    else
      let st := ueStream store index
      let d := if store = 6 then d else d.fltRecord (d.streamFn st) 5 store st (d.streamDom st) 0 iova word
      ((d.alarm 0x010D store word).ueEffect store index word iova)))

/-- SRAM_SINGLE_ERROR: corrected and counted (R10). -/
def execSramSingleError (store : Nat) (s : State) : Host.Outcome State Fault Refusal :=
  .next (s.onLive (fun d =>
    if out store 1 6 then d
    else { d with sbe := Tab.set d.sbe store (satInc (2 ^ 32 - 1) (Tab.get 0 d.sbe store)) }))

end Sys2Proof.Machine
end

