-- ==== Sys2Proof/Machine/Secure.lean ====
section
/-! DEFINITION. The secure commands (R153–R155): the envelope, authorised commands, the owner key, staging of flash
images, their commit and activation (R346–R348), and FLASH_WRITE_DONE. -/

namespace Sys2Proof.Machine

/-- A SECURE_CHANGE record (R351): opcode, DATA bytes 0–7, requesting tag; PF1 is the requester. -/
def Dev.secureChange (d : Dev) (op what tag : Nat) : Dev := d.mordant 0x0F08 op 0 3 (le 8 what ++ le 2 tag)

/-! ### The envelope (R154) -/

/-- Some channel's envelope is locked. -/
def Dev.anyLock (d : Dev) : Bool := (List.range 48).any (fun n => (d.env n).lock)

/-- ENV_SET raises a field of a locked channel, or the device-wide rail ceiling while a channel is locked (R154). -/
def Dev.envRaises (d : Dev) (mask vmax tmax xmax plong rail : Nat) : Bool :=
  (chList mask).any (fun n =>
    let e := d.env n
    e.lock && decide (e.vmax < vmax ∨ e.tmax < tmax ∨ e.xmax < xmax ∨ e.plong < plong))
  || (d.anyLock && decide (d.nvm.rail < rail))

/-- ENV_SET (R153, R154). -/
def checkEnvSet (d : Dev) (mask vmax tmax xmax plong rail lock : Nat) : Option Nat :=
  firstFail [(d.namesPartner mask, NOT_PERMITTED),
    (badMask 48 mask || out vmax 100 6000 || out tmax 200 2500 || out xmax 100 20000 || out plong 1 600
      || (rail ≠ 0 && out rail 50 400) || out lock 0 1, OUT_OF_RANGE),
    (d.envRaises mask vmax tmax xmax plong rail, ENVELOPE)]

/-- A working limit pulled down to the envelope; 0xFFFF stands for the envelope itself. -/
def pulled (v cap : Nat) : Nat := if v ≠ 65535 && decide (cap < v) then cap else v

/-- ENV_SET on one channel: its envelope, its working limits, ENVELOPE_CHANGED. `rail` says that the rail ceiling falls,
`budget` that it pulls the budget down. -/
def Dev.envChan (d : Dev) (n vmax tmax xmax plong : Nat) (lock rail budget : Bool) : Dev :=
  let e := d.env n
  let lower : Bool := decide (vmax < e.vmax ∨ tmax < e.tmax ∨ xmax < e.xmax ∨ plong < e.plong) || rail
  let e' : Env := { vmax := vmax, tmax := tmax, xmax := xmax, plong := plong, lock := e.lock || lock }
  let p := (d.chan n).prot
  let p' := { p with vmax := pulled p.vmax vmax, tmax := pulled p.tmax tmax, xmax := pulled p.xmax xmax,
                     plong := pulled p.plong plong }
  let pull : Bool := p' ≠ p || budget
  let d := ({ d with nvm := { d.nvm with env := Tab.set d.nvm.env n e' } } : Dev).updProt n (fun _ => p')
  if lower || pull then d.raiseIn (d.chan n).dom 0x0502 n (b2n lower + 4 * b2n pull) 0 else d

/-- ENV_SET takes effect: the rail ceiling and budget, then each channel (R154). -/
def applyEnvSet (d : Dev) (mask vmax tmax xmax plong rail lock : Nat) : Dev :=
  let lower : Bool := rail ≠ 0 && decide (rail < d.nvm.rail)
  let budget : Bool := rail ≠ 0 && decide (rail < d.railBudget)
  let d := if rail = 0 then d else
    { d with nvm := { d.nvm with rail := rail }, railBudget := if budget then rail else d.railBudget }
  d.forEach (chList mask) (fun n d => d.envChan n vmax tmax xmax plong (lock = 1) lower budget)

/-- ENV_UNLOCK takes effect: LOCK is cleared on the selected channels (R153). -/
def applyEnvUnlock (d : Dev) (mask : Nat) : Dev :=
  d.forEach (chList mask) (fun n d =>
    let e := d.env n
    if e.lock then
      ({ d with nvm := { d.nvm with env := Tab.set d.nvm.env n { e with lock := false } } } : Dev).raiseIn
        (d.chan n).dom 0x0502 n 2 0
    else d)

/-! ### Authorised commands (R153, R155) -/

/-- AUTH_CHALLENGE: a new 64-bit nonce replaces the last one (R153). -/
def applyAuthChallenge (d : Dev) : Dev :=
  let (n, d) := d.drawn Config.freeNat
  { d with nonce := some (n % 2 ^ 64, d.sys.uptime) }

/-- SIG and the payload with SIG zero of an authorised command, its reserved bytes as sent (R155). -/
def authOf (c : Cmd) (rsvd : Nat) : Option (Nat × List Nat) :=
  match c with
  | .envUnlock m sig => some (sig, le 8 m ++ List.replicate 64 0)
  | .ownerKey k sig => some (sig, le 64 k ++ List.replicate 64 0)
  | .mordantClear a sig => some (sig, a :: le 7 rsvd ++ List.replicate 64 0)
  | _ => none

/-- The signature verifies with the owner key over the nonce in force, which was issued within 60 s. -/
def Dev.sigGood (d : Dev) (op sig : Nat) (bytes : List Nat) : Bool :=
  match d.nonce, d.nvm.ownerKey with
  | some (n, at_), some k => decide (d.sys.uptime ≤ at_ + 60000000) && Config.sigOk k op bytes n sig
  | _, _ => false

/-- Authorise a command: a bad or missing signature, or no owner key, consumes the nonce and raises AUTH_FAIL; a good one
consumes it too. The first OWNER_KEY carries SIG = 0 and needs no nonce (R153, R155). -/
def Dev.authorise (d : Dev) (c : Cmd) (rsvd : Nat) : Dev × Bool :=
  match authOf c rsvd with
  | none => (d, true)
  | some (sig, bytes) =>
    let first : Bool := Cmd.op c = 0x0803 && d.nvm.ownerKey.isNone
    if first && sig = 0 then (d, true)
    else
      let ok := !first && d.sigGood (Cmd.op c) sig bytes
      let d' := { d with nonce := none }
      if ok then (d', true) else (d'.raise 0x0801 (Cmd.op c) 0, false)

/-- MORDANT_CLEAR: at least one area; one erase at a time (log entry 33). -/
def checkMordantClear (d : Dev) (area : Nat) : Option Nat :=
  firstFail [(out area 1 3, OUT_OF_RANGE), (d.nvm.clearing.isSome, BUSY)]

/-! ### Flash regions (R346) -/

/-- A flash region: 0 image A, 1 image B, 2 the profile library. -/
def Nvm.img (v : Nvm) (k : Nat) : Img := if k = 0 then v.imgA else if k = 1 then v.imgB else v.lib
/-- Replace it. -/
def Nvm.setImg (v : Nvm) (k : Nat) (x : Img) : Nvm :=
  if k = 0 then { v with imgA := x } else if k = 1 then { v with imgB := x } else { v with lib := x }

/-- The image that TARGET 0 names: the other than the running one; in recovery mode, the other than SELECT (R155). -/
def Dev.otherImage (d : Dev) : Nat := 1 - (if d.sys.recovery then d.nvm.select else d.sys.image)

/-- The flash region of a TARGET. -/
def Dev.region (d : Dev) (target : Nat) : Nat := if target = 0 then d.otherImage else 2

/-- STAGE (R153, R155). A read that starts beyond the IOVA range is out of range. -/
def checkStage (_d : Dev) (target offset len src : Nat) : Option Nat :=
  let size := if target = 0 then 6291456 else 2097152
  firstFail [(out target 0 1 || out len 4096 1048576 || len % 4096 ≠ 0 || decide (size < offset + len)
    || decide (2 ^ 38 ≤ src), OUT_OF_RANGE)]

/-- STAGE starts: the first one since STAGE_COMMIT or a restart invalidates the target, and its data is read from host
memory (R155); behind the fence of the internal domain it fails (R58). -/
def applyStage (d : Dev) (tag target offset len : Nat) : Dev :=
  let k := d.region target
  let x := d.nvm.img k
  let x := if x.staging then x else { x with valid := false, committed := false, staging := true, next := 0 }
  ({ d with nvm := d.nvm.setImg k { x with next := max x.next (offset + len) } } : Dev).updTag tag
    (fun t => { t with ph := .ending, waits := len }) |> fun d =>
      if d.streamFenced 0x1300 then d.internalFail BAD_POINTER else d.stageGo

/-- OWNER_KEY starts: the key is written to the flash (R153). -/
def applyOwnerKey (d : Dev) (tag : Nat) : Dev := d.updTag tag (fun t => { t with ph := .ending })

/-- The header, digest and signature of a region pass (R346, R348). -/
def Dev.imgPasses (d : Dev) (k : Nat) (h : ImgHdr) : Bool :=
  if k = 2 then
    h.format = 2 && decide (h.length ≤ 2093056) && h.entry = 0 && h.digestOk
      && (h.sigStaelkel || (h.sigOwner && d.nvm.ownerKey.isSome))
  else
    h.format = 1 && decide (h.length ≤ 6287360) && decide (h.entry < h.length) && h.digestOk && h.sigStaelkel

/-- STAGE_COMMIT finds the target good: its version; an image also lies at or above the rollback floor (R348). -/
def Dev.commits (d : Dev) (k : Nat) : Option (Nat × Nat) :=
  let x := d.nvm.img k
  let r : Option (Nat × Nat) := match x.hdr with
    | some h => if d.imgPasses k h then some (h.version, h.floor) else none
    | none => if x.valid then some (x.version, x.floor) else none
  match r with
  | some (v, f) => if k ≠ 2 && decide (v < d.nvm.floor) then none else some (v, f)
  | none => none

/-- STAGE_COMMIT (R153). -/
def checkStageCommit (_d : Dev) (target : Nat) : Option Nat := firstFail [(out target 0 1, OUT_OF_RANGE)]

/-- STAGE_COMMIT: RESULT is the version; a failed check gives NOT_PERMITTED and leaves the target invalid. The manual does
not say what the record's image byte holds for the library: a free value (log entry 38). -/
def applyStageCommit (d : Dev) (tag target : Nat) : Dev :=
  let k := d.region target
  let x := d.nvm.img k
  match d.commits k with
  | none =>
    ({ d with nvm := d.nvm.setImg k { x with valid := false, committed := false, staging := false } } : Dev).fail
      tag NOT_PERMITTED
  | some (v, f) =>
    let x := { x with version := v, floor := f, valid := true, committed := true, staging := false }
    let d := { d with nvm := { d.nvm.setImg k x with libNext := d.nvm.libNext || k = 2 } }
    let (b, d) := if k = 2 then d.drawn Config.freeNat else (k, d)
    (d.secureChange 0x0805 (b % 256 + v % 2 ^ 32 * 2 ^ 32) tag).completeNow tag OK d.tb.master v

/-- ACTIVATE: only an image that has passed STAGE_COMMIT (R153, R347). -/
def checkActivate (d : Dev) (image now : Nat) : Option Nat :=
  firstFail [(decide (image < 2) && !(d.nvm.img image).committed, NOT_PERMITTED), (out image 0 1 || out now 0 1, OUT_OF_RANGE)]

/-- ACTIVATE: SELECT, TRIAL, the FAILED mark; NOW = 1 restarts once the completion is written (R153, R347). -/
def applyActivate (d : Dev) (tag image now : Nat) : Dev :=
  let v := { d.nvm with select := image, trial := true }
  let v := if image = 0 then { v with failA := false } else { v with failB := false }
  let d := ({ d with nvm := v } : Dev).secureChange 0x0806 (image + (v.img image).version % 2 ^ 32 * 2 ^ 32) tag
  let d := if now = 1 then { d with restartReq := some 2, restartTag := some tag } else d
  d.completeNow tag OK d.tb.master 0

/-- RESTART: MODE 0 only (R136). -/
def checkRestart (_d : Dev) (mode : Nat) : Option Nat := firstFail [(out mode 0 0, OUT_OF_RANGE)]

/-- RESTART completes with OK; the restart follows (R136, R351). -/
def applyRestart (d : Dev) (tag : Nat) : Dev :=
  let d := d.secureChange 0x010A (d.sys.image + d.sys.fw % 2 ^ 32 * 2 ^ 32) tag
  ({ d with restartReq := some 1, restartTag := none } : Dev).completeNow tag OK d.tb.master 0

/-- A flash write and its read-back check have ended: STAGE, once all its data has been read, or OWNER_KEY completes (R155). `hdr` is the header of the
region as it then stands; a failed check gives HW_FAULT. -/
def Dev.flashDone (d : Dev) (tag : Nat) (hdr : ImgHdr) (good : Bool) : Dev :=
  let t := d.tag tag
  if t.st ≠ .active || t.ph ≠ .ending || t.waits ≠ 0 then d
  else match t.cmd with
    | some (.stage target _ _ _) =>
      let k := d.region target
      let d := { d with nvm := d.nvm.setImg k { d.nvm.img k with hdr := some hdr } }
      if good then d.completeNow tag OK d.tb.master 0 else d.fail tag HW_FAULT
    | some (.ownerKey key _) =>
      if good then
        let d := ({ d with nvm := { d.nvm with ownerKey := some key } } : Dev).secureChange 0x0803 0 tag
        d.completeNow tag OK d.tb.master 0
      else d.fail tag HW_FAULT
    | _ => d

/-- FLASH_WRITE_DONE (R155). -/
def execFlashWriteDone (tag : Nat) (hdr : ImgHdr) (good : Bool) (s : State) : Host.Outcome State Fault Refusal :=
  .next (s.onLive (fun d => if d.sys.ready then d.flashDone tag hdr good else d))

end Sys2Proof.Machine
end

