-- ==== Sys2Proof/Machine/Proc.lean ====
section
/-! DEFINITION. The control processor: the watchdog and restarts (R342–R345), what a restart does to commands and notices
(R100, R121), image selection at boot (R347–R349), the flywheel (R343), and the firmware status mirror (R410). -/

namespace Sys2Proof.Machine

/-! ### Image selection at boot (R347) -/

/-- FAILED mark of an image. -/
def Nvm.failed (v : Nvm) (k : Nat) : Bool := if k = 0 then v.failA else v.failB
/-- Mark an image FAILED. -/
def Nvm.markFailed (v : Nvm) (k : Nat) : Nvm := if k = 0 then { v with failA := true } else { v with failB := true }

/-- An image qualifies: header, digest and signature pass, VERSION at or above the floor (R347 step 2). -/
def Nvm.qualifies (v : Nvm) (k : Nat) : Bool := (v.img k).valid && decide (v.floor ≤ (v.img k).version)

/-- The image that boots: SELECT unless it is marked FAILED, then the other image (R347 step 2). -/
def Nvm.bootable (v : Nvm) : Option Nat :=
  if !v.failed v.select && v.qualifies v.select then some v.select
  else if v.qualifies (1 - v.select) then some (1 - v.select)
  else none

/-- The boot ROM selects the image (R347). `ended` is the cause of the restart that ended the previous run, none for a
reset. A fallback is recorded and raised with the image that failed. -/
def Dev.boot (d : Dev) (ended : Option Nat) : Dev :=
  let v := d.nvm
  let v := if v.trial && d.sys.image = v.select && (ended = some 0 || ended = some 3) then v.markFailed v.select else v
  match v.bootable with
  | none => { d with nvm := v, sys := { d.sys with image := 3, recovery := true, fallback := none } }
  | some k =>
    if k = v.select then { d with nvm := v, sys := { d.sys with image := k, recovery := false } }
    else
      let f := v.select
      let fv := (v.img f).version
      let d := { d with nvm := { v.markFailed f with select := k, trial := false },
                        sys := { d.sys with image := k, recovery := false, fallback := some (fv, (v.img k).version) } }
      d.alarm 0x0102 f fv

/-! ### Restart (R16, R120, R121, R342) -/

/-- WATCHDOG_EXPIRY: 250 ms without service; a restart of cause 0 follows (R342). A boot loader that holds the processor
in reset has nothing to restart (R349). -/
def execWatchdogExpiry (s : State) : Host.Outcome State Fault Refusal :=
  .next (s.onLive (fun d => if d.sys.bootFail then d else { d with restartReq := some 0, restartTag := none }))

/-- Epoch after one more restart (R120). -/
def nextEpoch (e : Nat) : Nat := if e = 0xFFFFFFFF then 1 else e + 1

/-- The phases of a boot before ready, with the longest time of each in µs: after a restart the image is checked before it is
loaded (R345, R373, R374; log entry 74). -/
def bootPhases (restart : Bool) : List (Nat × Nat) :=
  if restart then [(0, 2000), (1, 20000), (3, 160000), (2, 110000), (4, 110000), (5, 120000)]
  else [(0, 2000), (1, 20000), (2, 200000), (3, 5000), (4, 53000)]

/-- PHASE `us` µs into boot `run`: each step takes a time of its own, which the manual bounds; the last lasts until ready. -/
def phaseAt (run us : Nat) : List (Nat × Nat) → Nat → Nat
  | [], last => last
  | (p, most) :: rest, _ =>
    let t := min most (Config.bootTime run p)
    if us < t then p else phaseAt run (us - t) rest p

/-- PHASE follows the boot until ready (R374). -/
def Dev.bootStep (d : Dev) : Dev :=
  if d.sys.ready || d.sys.bootFail then d
  else { d with sys := { d.sys with phase := phaseAt d.sys.bootAt (d.sys.uptime - d.sys.bootAt) (bootPhases d.sys.wasRestart) 0 } }

/-- The completion that a restart waits for is written: an activation restarts once it is (R153). -/
def Dev.restartDue (d : Dev) : Bool :=
  match d.restartTag with
  | none => true
  | some t => (d.tag t).st = .free || (d.tag t).st = .written

/-- A channel's notices when the processor enters reset: TAKEN returns to QUEUED, and DN_TMO rises with RECEIVER_DOWN
where a port has any (R94, R100). -/
def Dev.noticesDown (d : Dev) (ch : Nat) : Dev :=
  let d := (d.dropStream (0x1200 + ch)).updMbx ch (fun m =>
    { m with fifo := m.fifo.map (fun (n : Notice) => { n with st := .queued }) })
  [false, true].foldl (fun d side =>
    if (d.mbx ch).fifo.any (fun n => n.side = side) then d.tmoRise ch side 0x0203 (fun _ => true) else d) d

/-- The processor domain enters reset for a cause (R16, R120, R342, R343). -/
def Dev.procReset (d : Dev) (cause : Nat) : Dev :=
  let e := nextEpoch d.sys.epoch
  let was := d.sys.ready
  let sys := { d.sys with
    epoch := e, ready := false, fw := 0, phase := 0, wasRestart := true, cause := cause, provenAt := none, bootAt := d.sys.uptime,
    flyStart := some (d.sys.flyStart.getD d.sys.uptime), discarded := 0 }
  let v := d.nvm
  let v := { v with imgA := { v.imgA with staging := false }, imgB := { v.imgB with staging := false },
                    lib := { v.lib with staging := false } }
  let d := { d with sys := sys, nvm := v, restartReq := none, restartTag := none, nonce := none, exports := [],
                    fetched := d.fetched.filter (fun (r : Raw) => r.tag.isNone) }
  let d := if was then (d.setCause 0 4).setCause 1 4 else d
  let d := (d.raise 0x0101 0 (e + cause * 2 ^ 32)).testsEnd
  let d := d.forEach (List.range 64) (fun ch d => d.noticesDown ch)
  let d := d.forEach (List.range 4) (fun r d => d.updStream r (fun s => if s.shadowFor.isNone then s else
    { s with shadow := [], shadowFor := none, undo := [], missed := satInc (2 ^ 32 - 1) s.missed }))
  let d := d.dropStream 0x1300
  d.boot (some cause)

/-- PROCESSOR_RESTART: the restart that is due takes place; the locks of the internal master are released (R107, R342). -/
def execProcessorRestart (s : State) : Host.Outcome State Fault Refusal :=
  .next (match s.dev.restartReq with
    | none => s
    | some cause =>
      if s.dev.live && s.dev.restartDue then (s.onDev (fun d => d.procReset cause)).releaseAll 1 else s)

/-! ### Ready (R121, R344, R349) -/

/-- The tag's command survives a restart: its effect is committed to hardware, or it is stamped and waits (R121). -/
def Tag.survives (t : Tag) : Bool :=
  let flash : Bool := match t.cmd with
    | some (.stage ..) | some (.ownerKey ..) => true
    | _ => false
  t.ph ≠ .long && (!t.done.isEmpty || t.ph = .applied || (t.ph = .ending && !flash)
    || (t.atLt && t.cmd.isSome && (t.ph = .waiting || t.ph = .sched)))

/-- Step 1 of R344: every ACTIVE tag is resolved under R121. -/
def Dev.resolve (d : Dev) : Dev :=
  let l := d.tagsInOrder (fun t => t.st = .active && !t.survives)
  let d := { d with sys := { d.sys with pQueue := d.sys.pQueue.filter (fun p => !l.contains p.2) } }
  (d.forEach l (fun n d => d.fail n RESET_DISCARD)).testSweep

/-- Step 3 of R344: every queued notice is acknowledged RESET_DISCARD and counted (R100). -/
def Dev.discardNotices (d : Dev) : Dev :=
  d.forEach (List.range 64) (fun ch d => (d.mbx ch).fifo.foldl (fun d n =>
    let d := d.ackNotice ch n RESET_DISCARD
    { d with sys := { d.sys with discarded := d.sys.discarded + 1 } }) d)

/-- Held events go to a function's EVT ring while it has space (R18, R344 step 5). -/
def Dev.heldOut (d : Dev) (fn : Nat) : Dev :=
  match d.firstRing fn 9 with
  | none => d
  | some k => (List.range 64).foldl (fun d _ => d.writeHeld k) d

/-- Steps 4–6 of R344: ready, READY and IMAGE_FALLBACK upstream (R161), held events, flywheel-muted channels (R343). In
recovery mode the boot loader declares itself ready: the flywheel timer and a flywheel mute stay (R349). -/
def Dev.declareReady (d : Dev) : Dev :=
  let full := !d.sys.recovery
  let fw := if full then (d.nvm.img d.sys.image).version else 0
  let sys := { d.sys with
    ready := true, fw := fw, phase := if full then 6 else 7, provenAt := if full then some d.sys.uptime else none,
    flyStart := if full then none else d.sys.flyStart, flyDone := !full && d.sys.flyDone,
    flyMute := if full then 0 else d.sys.flyMute,
    flyClose := if full && d.sys.flyDone then some (d.sys.uptime + 20000) else d.sys.flyClose,
    fallback := none, ueWord := none }
  let fb := d.sys.fallback
  let ue := d.sys.ueWord
  let d := ((({ d with sys := sys } : Dev).setCause 0 4).setCause 1 4).railCount
  let d := d.upstream ((List.range 64).filter (fun ch => (d.mbx ch).upbuf ≠ 0)) 1
    (le 4 fw ++ [if full then d.sys.image else 0xFF, 0, 0, 0] ++ le 4 d.sys.discarded)
  let d := match fb with
    | some (f, r) => d.upstream (List.range 64) 3 (le 4 f ++ le 4 r)
    | none => d
  let d := match ue with
    | some w => (d.fltRecord 1 5 6 0x1300 2 0 0 w).closing 0x010D 6
    | none => d
  let d := ((d.heldOut 0).heldOut 1).testsBack
  if full then d.retarget 20 else d

/-- PROCESSOR_READY: Ramcen, or in recovery mode the boot loader, is ready (R344, R349, R373). `good` is false where the
boot loader's own signature fails: the processor is then held in reset (R349). -/
def execProcessorReady (good : Bool) (s : State) : Host.Outcome State Fault Refusal :=
  .next (s.onLive (fun d =>
    if d.sys.ready || d.sys.bootFail || d.restartReq.isSome then d
    else if !good then { d with sys := { d.sys with bootFail := true, phase := 8, image := 3 } }
    else d.resolve.discardNotices.declareReady))

/-- FLYWHEEL_LIMIT: the flywheel timer reaches 2.0 s and every SWITCHING channel ramps to mute (R343). -/
def execFlywheelLimit (s : State) : Host.Outcome State Fault Refusal :=
  .next (s.onLive (fun d =>
    match d.sys.flyStart with
    | none => d
    | some at_ =>
      if d.sys.flyDone || decide (d.sys.uptime < at_ + 2000000) then d
      else
        let mask := listMask ((List.range 48).filter (fun n => (d.chan n).st = .switching))
        let d := { d with sys := { d.sys with flyDone := true, flyMute := mask } }
        (d.retarget 20).alarm 0x0B0C 0 mask))

/-- The restore ramp of a flywheel mute has ended: the outage closes (R341). -/
def Dev.flyEnd (d : Dev) : Dev :=
  match d.sys.flyClose with
  | some a => if d.sys.uptime < a then d else ({ d with sys := { d.sys with flyClose := none } } : Dev).closing 0x0B0C 0
  | none => d

/-- IMAGE_PROVEN: 60 s of running from ready: TRIAL is cleared where SELECT runs, and the floor rises (R347, R348). -/
def execImageProven (s : State) : Host.Outcome State Fault Refusal :=
  .next (s.onLive (fun d =>
    match d.sys.provenAt with
    | none => d
    | some at_ =>
      if d.sys.uptime < at_ + 60000000 then d
      else
        let v := d.nvm
        { d with
          nvm := { v with trial := v.trial && d.sys.image ≠ v.select, floor := max v.floor (v.img d.sys.image).floor },
          sys := { d.sys with provenAt := none } }))

/-- MIRROR_COPY: once in each uptime second the running firmware writes a whole copy (R410, R411). -/
def execMirrorCopy (s : State) : Host.Outcome State Fault Refusal :=
  .next (s.onLive (fun d =>
    let d := d.secondEnd
    let sec := d.sys.uptime / 1000000
    if !d.sys.ready || d.sys.recovery || d.mirSec = some sec then d
    else
      let q := (d.mirSeq + 2) % 2 ^ 32
      { d with mirror := d.mirrorBytes q, mirSeq := q, mirSec := some sec }))

end Sys2Proof.Machine
end

