-- ==== Sys2Proof/Machine/Power.lean ====
section
/-! DEFINITION. Supplies, resets, clocks and power states (R354, R364, R369–R380): the power-on reset, PERST_N, the 25 MHz
reference, and POWER_STATE with its transitions. -/

namespace Sys2Proof.Machine

/-! ### What a reset leaves (R7, R370) -/

/-- The non-volatile memories across a reset: an erase that was interrupted runs again without its command (R355), and
a staging ends (R155). -/
def Nvm.acrossReset (v : Nvm) : Nvm :=
  { v with clearing := v.clearing.map (fun c => (c.1, c.2.1, none)), libNext := false,
           imgA := { v.imgA with staging := false }, imgB := { v.imgB with staging := false },
           lib := { v.lib with staging := false } }

/-- The emergency layer after a reset: the pin keeps its level, and its source asserts while it is low (R277). -/
def Emg.acrossReset (e : Emg) : Emg :=
  { Emg.reset with verm := e.verm, down := e.verm, active := e.verm, outAtPerst := e.outPin }

/-- Everything reset, but for the non-volatile memories, the level of VERM_IN_N, and the model's own log and counters
(R369, R370; log entries 3, 5). -/
def Dev.wiped (d : Dev) : Dev :=
  { Dev.reset with
    sys := { Sys.reset with cause := d.sys.cause, refOk := d.sys.refOk },
    nvm := { d.nvm.acrossReset with lastLost := satAdd (2 ^ 32 - 1) d.nvm.lastLost d.mdt.lost,
                                    frozeEnd := d.nvm.frozeEnd || d.fz.frozen },
    mdt := { Mdt.reset with queue := [] },
    emg := d.emg.acrossReset, fz := { Fz.reset with img := d.fz.img }, out := d.out, lastRead := d.lastRead, draw := d.draw }

/-- A POWER_ON record (R351, R364). -/
def Dev.powerOnRec (d : Dev) : Dev :=
  let v := d.nvm
  ({ d with nvm := { v with frozeEnd := false } } : Dev).mordant 0x0F01 0 0 0
    (le 4 v.cycles ++ le 4 v.prevLost ++ [b2n v.prevFail, b2n v.frozeEnd])

/-- The reset is released: the epoch is 1, training and the boot start (R120, R373). A reset that ended a freeze is
followed by a POWER_ON record (R364). -/
def Dev.released (d : Dev) : Dev :=
  let d := { d with sys := { d.sys with perst := false, perstWait := false, epoch := 1, relAt := d.sys.uptime, bootAt := d.sys.uptime } }
  let d := if d.nvm.frozeEnd then d.powerOnRec else d
  d.boot none

/-! ### PERST_N (R370–R373) -/

/-- Some channel's output switches. -/
def Dev.anySwitching (d : Dev) : Bool := d.chans.any (fun p => p.2.st.on)

/-- A channel in its reset state but for the temperatures of its thermal model, which the power-on reset alone sets (R246;
log entry 76). -/
def Chan.acrossPerst (c : Chan) : Chan :=
  { Chan.reset with prot := { Prot.reset with tc := c.prot.tc, tm := c.prot.tm, tf := c.prot.tf, ta := c.prot.ta } }

/-- PERST_N resets every domain (R370, R371): a RESET_IN record first, but while frozen; TW_CONFIG, the two-wire port's
registers and transfer, the ECC counts (R411) and the temperatures of the thermal models (R246) stay. -/
def Dev.perstReset (d : Dev) : Dev :=
  let d := if d.fz.frozen || d.sys.mramOff then d
    else let d := d.flush; d.writeRec (d.recNow 0x0F0A 0 0 [b2n d.anySwitching])
  let w := d.wiped
  { w with sys := { w.sys with perst := true, uptime := d.sys.uptime, epoch := d.sys.epoch, v3Low := d.sys.v3Low,
                               mramOff := d.sys.mramOff },
           tw := d.tw, sbe := d.sbe, chans := Tab.mapAll (fun (_ : Nat) (c : Chan) => c.acrossPerst) d.chans }

/-- Reset of the lock file and the sideband window with everything else (R107, R370). -/
def State.wipe (s : State) (f : Dev → Dev) : State := { s with locks := Locks.reset, win := [], dev := f s.dev }

/-- PERST_N_ASSERT: `long` is false for a pulse below 1 µs, which is ignored and counted (R17, R370). -/
def execPerstNAssert (long : Bool) (s : State) : Host.Outcome State Fault Refusal :=
  .next (
    if !long then
      s.onLive (fun d => { d with tb := { d.tb with perstIgn := satInc (2 ^ 32 - 1) d.tb.perstIgn } })
    else if s.dev.sys.perst then s
    else if s.dev.sys.por then s.onDev (fun d => { d with sys := { d.sys with perst := true } })
    else s.wipe Dev.perstReset)

/-- PERST_N_RELEASE: takes effect at once, or with the power-on reset, or once the reference runs (R372, R373, R380). -/
def execPerstNRelease (s : State) : Host.Outcome State Fault Refusal :=
  .next (
    if !s.dev.sys.perst then s
    else if s.dev.sys.por || !s.dev.sys.refOk then
      s.onDev (fun d => { d with sys := { d.sys with perstWait := true } })
    else s.onDev Dev.released)

/-! ### Power-on reset (R354, R369) -/

/-- The power-on reset is asserted: everything resets but the non-volatile memories. -/
def Dev.porReset (d : Dev) : Dev :=
  let w := d.wiped
  { w with sys := { w.sys with por := true, perst := d.sys.perst, perstWait := d.sys.perstWait, uptime := 0 },
           nvm := { w.nvm with failRec := d.sys.v3Low.isSome } }

/-- LOGIC_RAIL_FAULT: a logic rail leaves its range (R369). -/
def execLogicRailFault (s : State) : Host.Outcome State Fault Refusal :=
  .next (if s.dev.sys.por then s else s.wipe Dev.porReset)

/-- POWER_FAIL_TIMEOUT: VDD_3V3 has stayed below 3.0 V for 100 µs (R354); while frozen its fall is not timed by the
fault supervisor (R19). -/
def execPowerFailTimeout (s : State) : Host.Outcome State Fault Refusal :=
  .next (
    let due : Bool := s.dev.fz.frozen || (match s.dev.sys.v3Low with
      | some at_ => decide (at_ + 100 ≤ s.dev.sys.uptime)
      | none => false)
    if s.dev.sys.por || !due then s else s.wipe Dev.porReset)

/-- The power-on reset is released: a power cycle begins, the ADDR pins are sampled (R17, R326), and a POWER_ON record
is made (R351). -/
def Dev.porRelease (d : Dev) (pins : Nat) : Dev :=
  let v := d.nvm
  let v := { v with cycles := (v.cycles + 1) % 2 ^ 32, prevLost := v.lastLost, lastLost := 0, prevFail := v.failRec,
                    failRec := false }
  let d := { d with sys := { d.sys with por := false, refOk := true, epoch := 1, relAt := 0, uptime := 0 },
                    tw := { d.tw with pins := pins % 8 }, nvm := v }
  let d := d.powerOnRec
  if d.sys.perst && !d.sys.perstWait then d else d.released

/-- POWER_ON_RESET: every supply and the reference are valid and the internal power-on reset is released (R369). -/
def execPowerOnReset (pins : Nat) (s : State) : Host.Outcome State Fault Refusal :=
  .next (if s.dev.sys.por then s.onDev (fun d => d.porRelease pins) else s)

/-! ### The 25 MHz reference (R377) -/

/-- REF_CLOCK_LOSS: the PLLs lose their reference, every channel ramps to mute over 2 ms; the hold follows when the ramp
has ended (R377). -/
def execRefClockLoss (s : State) : Host.Outcome State Fault Refusal :=
  .next (
    if s.dev.sys.por || !s.dev.sys.refOk then s
    else
      let s := s.onDev (fun d => { d with sys := { d.sys with refOk := false, spll := false, apll := false,
                                                              refLostAt := some d.sys.uptime } })
      s.onLive (fun d => (d.retarget 2).alarm 0x010A 0 0))

/-- The 2 ms ramp of a lost reference has ended: every channel takes its hold (R377 step 3). -/
def Dev.refHoldDue (d : Dev) : Dev :=
  match d.sys.refLostAt with
  | none => d
  | some at_ =>
    if d.sys.refHold || decide (d.sys.uptime < at_ + 2000) then d
    else ({ d with sys := { d.sys with refHold := true } } : Dev).holdAll

/-- REF_CLOCK_RESTORE: valid for 10 ms: the PLLs relock, the audio PLL but in SLEEP, and the hold is withdrawn (R377); a
PERST_N release that waited takes effect (R380). -/
def execRefClockRestore (s : State) : Host.Outcome State Fault Refusal :=
  .next (
    if s.dev.sys.por || s.dev.sys.refOk then s
    else
      let s := s.onDev (fun d =>
        let p := d.sys.pstate
        { d with sys := { d.sys with refOk := true, spll := true, apll := p ≠ 2 && p ≠ 4, refLostAt := none,
                                     refHold := false } })
      if s.dev.sys.perst && s.dev.sys.perstWait then s.onDev Dev.released
      else s.onLive (fun d => ((d.alarm 0x010A 0 1).holdAll).retarget 2))

/-- The PLLs lock after a reset: the system PLL after 0.5 ms, the audio PLL after 5 ms (R376; log entry 40). -/
def Dev.plls (d : Dev) : Dev :=
  let t := d.sys.uptime - d.sys.relAt
  let p := d.sys.pstate
  { d with sys := { d.sys with spll := d.sys.spll || (d.sys.refOk && decide (500 ≤ t)),
                               apll := d.sys.apll || (d.sys.refOk && decide (5000 ≤ t) && p ≠ 2 && p ≠ 4) } }

/-! ### Power states (R139, R378, R379) -/

/-- A diagnostic runs, or a stamped command is pending but the tag's own (R139, R378). -/
def Dev.powerBusy (d : Dev) (self : Nat) : Bool :=
  d.chans.any (fun p => p.2.diag.ph ≠ .idle) || !d.acou.queue.isEmpty || d.tags.any (fun e => e.1 ≠ self && e.2.uncommitted && e.2.atLt)

/-- POWER_STATE (R136, R378). -/
def checkPowerState (d : Dev) (self st : Nat) : Option Nat :=
  firstFail [(out st 0 2, OUT_OF_RANGE),
    (st ≠ 0 && d.powerBusy self, BUSY),
    (st = 2 && d.rings.any (fun p => p.2.iso && p.2.st ≠ .disabled), BUSY)]

/-- A transition starts; a state already in force completes at once (R378, R379). -/
def Dev.powerGo (d : Dev) (tag st : Nat) : Dev :=
  let p := d.sys.pstate
  if p = st then d.completeNow tag OK d.tb.master 0
  else
    let d := d.updTag tag (fun t => { t with ph := .ending })
    let sys := { d.sys with pGoal := st, pTag := some tag,
                            pstate := if st = 2 then 3 else if p = 2 then 4 else p }
    ({ d with sys := sys } : Dev).retarget 2

/-- POWER_STATE takes effect, or waits for the transition under way (R380). -/
def applyPowerState (d : Dev) (tag st : Nat) : Dev :=
  if d.sys.pTag.isSome then { d with sys := { d.sys with pQueue := d.sys.pQueue ++ [(st, tag)] } }
  else d.powerGo tag st

/-- The next POWER_STATE command that waits. -/
def Dev.powerNext : Nat → Dev → Dev
  | 0, d => d
  | n + 1, d =>
    match d.sys.pQueue with
    | [] => d
    | (st, tag) :: rest =>
      let d := { d with sys := { d.sys with pQueue := rest } }
      if (d.tag tag).st ≠ .active then powerNext n d
      else
        let d := d.powerGo tag st
        if d.sys.pTag.isSome then d else powerNext n d

/-- The ramps of an entry have ended: no switching channel passes audio in layer 3. -/
def Dev.rampedDown (d : Dev) : Bool := d.chans.all (fun p => !p.2.st.on || p.2.aux.val = 0)

/-- A transition ends (R378, R379): the hold of STANDBY and SLEEP, the clocks and ports, the completion, the next one. -/
def Dev.powerDone (d : Dev) : Dev :=
  match d.sys.pTag with
  | none => d
  | some tag =>
    let g := d.sys.pGoal
    let was := d.sys.pstate
    let sys := { d.sys with pstate := g, pHold := g ≠ 0, pTag := none,
                            apll := if g = 2 then false else if was = 4 then d.sys.refOk else d.sys.apll }
    let tw := if g = 2 then { d.tw with awake := false } else if was = 4 then { d.tw with awake := true } else d.tw
    let d := { d with sys := sys, tw := tw }
    let d := if g = 2 then d.portsSleep else d
    (((d.holdAll).retarget 2).completeNow tag OK d.tb.master 0).powerNext 512

/-- POWER_STATE_TRANSITION_END: an entry once every channel has ramped to mute, an exit once the engines run (R378, R379). -/
def execPowerStateTransitionEnd (s : State) : Host.Outcome State Fault Refusal :=
  .next (s.onLive (fun d => if d.sys.pGoal ≠ 0 && !d.rampedDown then d else d.powerDone))

end Sys2Proof.Machine
end

