-- ==== Sys2Proof/Machine/System.lean ====
section
/-! DEFINITION. System commands (R136–R139, R98): GET_INFO with its identity block, CANCEL, MBX_CONFIG. -/

namespace Sys2Proof.Machine

/-- The identity block (R137). -/
def Dev.identity (d : Dev) : List Nat :=
  let ver := fun (x : Img) => if x.valid then x.version else 0
  (List.range 16).map (fun k => (Config.serial k).toNat) ++ le 4 (ver d.nvm.imgA) ++ le 4 (ver d.nvm.imgB)
    ++ le 4 Config.bootVersion ++ le 4 (ver d.nvm.lib) ++ le 8 Config.calDate ++ [b2n d.nvm.ownerKey.isSome]
    ++ List.replicate 23 0

/-- GET_INFO: version, running image, revision; the identity block with OUTLEN (R136, R137). In recovery mode the version
reads 0 and no image runs: bit 32 is then a free value (R349; log entry 41). -/
def applyGetInfo (d : Dev) (tag : Nat) : Dev :=
  let d := d.writeOut tag 0 d.identity
  let (b, d) := if d.sys.recovery then d.drawn Config.freeNat else (d.sys.image, d)
  d.completeNow tag OK d.tb.master (d.sys.fw + b % 2 * 2 ^ 32 + 0x11 * 2 ^ 40)

/-- CANCEL (R138): a tag of the sender's own range, of an uncommitted or a running long command. -/
def checkCancel (d : Dev) (sender self target : Nat) : Option Nat :=
  let t := d.tag target
  firstFail [(!ownTag sender target, NOT_PERMITTED),
    (target = self || !(t.uncommitted || (t.st = .active && t.ph = .long)), BUSY)]

/-- CANCEL: the target ends with CANCELLED, a running long command at the next block boundary (R138). -/
def applyCancel (d : Dev) (tag target : Nat) : Dev :=
  let d := if (d.tag target).uncommitted then (d.fail target CANCELLED).testSweep
    else d.updTag target (fun t => { t with cancelAt := true })
  d.completeNow tag OK d.tb.master 0

/-- MBX_CONFIG (R98, R136): fields whose SET bit is clear are not looked at. -/
def checkMbxConfig (d : Dev) (sender ch set cpl vec tmo upbuf : Nat) : Option Nat :=
  let fn := fnOf sender
  let r := d.ring cpl
  let bind : Bool := bit set 0 && cpl ≠ 0xFFFF
  firstFail [((decide (ch < 64) && mbxFn ch ≠ fn) || (bind && decide (cpl < 4096) && r.st ≠ .disabled && r.owner ≠ fn), NOT_PERMITTED),
    (out ch 0 63 || out set 0 15 || (bind && (decide (4096 ≤ cpl) || r.st = .disabled || r.type ≠ 8))
      || (bit set 1 && out vec 0 127) || (bit set 2 && out tmo 1 1000)
      || (bit set 3 && (decide (2 ^ 38 ≤ upbuf) || upbuf % 4096 ≠ 0)), OUT_OF_RANGE),
    (bit set 3 && !(d.mbx ch).up.isEmpty, BUSY)]

/-- MBX_CONFIG: with an upstream buffer, messages that a reset removed are posted again (R101). -/
def applyMbxConfig (d : Dev) (ch set cpl vec tmo upbuf : Nat) : Dev :=
  d.updMbx ch (fun m =>
    let m := if bit set 0 then { m with cpl := if cpl = 0xFFFF then none else some cpl } else m
    let m := if bit set 1 then { m with vec := vec } else m
    let m := if bit set 2 then { m with tmoMs := tmo } else m
    let m := if bit set 3 then { m with upbuf := upbuf } else m
    if bit set 3 && upbuf ≠ 0 then
      { m with repost := m.repost ++ m.again.map (fun u => (d.sys.uptime, { u with again := false })), again := [] }
    else m)

end Sys2Proof.Machine
end

