-- ==== Sys2Proof/Machine/Sepia.lean ====
section
/-! DEFINITION. The Sepia freeze (R358–R364): triggers, the stop, the image and its read-out, the lab thaw; and the TAP's
Test-Logic-Reset (R107). -/

namespace Sys2Proof.Machine

/-! ### Triggers and the stop (R358, R359) -/

/-- A freeze (R359): the FREEZE record goes to MRAM ahead of the queue, which stays as it is and is counted; every clock
that holds state stops; the link is lost. -/
def Dev.freeze (d : Dev) (trigger : Nat) : Dev :=
  let seq := d.nvm.next
  let d := if d.sys.mramOff then d else d.writeRec (d.recNow 0x0F03 trigger 0 (le 4 d.mdt.queue.length))
  let lost := d.drawn Config.freeBool
  let ue := lost.2.drawn Config.freeBool
  let d := ue.2
  { d with
    fz := { d.fz with frozen := true, trigger := trigger, armedAt := none, lt := d.cmLt, sc := d.cmSc, mdtSeq := seq,
                      lost := lost.1, ue := ue.1, img := d.draw },
    draw := d.draw + 1,
    link := { d.link with up := false, l1 := false } }

/-- FREEZE_N_FALL: a filtered falling edge, after the pin was high for `highUs` µs; it counts only from the release of
reset, and needs 1 ms (R358). -/
def execFreezeNFall (highUs : Nat) (s : State) : Host.Outcome State Fault Refusal :=
  .next (s.onLive (fun d =>
    if 1000 ≤ min highUs (d.sys.uptime - d.sys.relAt) then d.freeze 0 else d))

/-- The two-wire trigger is armed and its 10 ms have not passed (R358). -/
def Dev.fzArmed (d : Dev) : Bool :=
  match d.fz.armedAt with
  | some t => decide (d.sys.uptime < t + 10000)
  | none => false

/-- A two-wire write of FZ_CTRL.KEY (R358, R363). -/
def Dev.fzKey (d : Dev) (key : Nat) : Dev :=
  if key = 0xA5 then { d with fz := { d.fz with armedAt := some d.sys.uptime } }
  else if key = 0x5A && d.fzArmed then d.freeze 1
  else { d with fz := { d.fz with armedAt := none } }

/-- FREEZE_ARM: 0xA5 written to KEY (R358). -/
def execFreezeArm (s : State) : Host.Outcome State Fault Refusal := .next (s.onLive (fun d => d.fzKey 0xA5))

/-- FREEZE_KEY_TRIGGER: 0x5A written to KEY (R358). -/
def execFreezeKeyTrigger (s : State) : Host.Outcome State Fault Refusal := .next (s.onLive (fun d => d.fzKey 0x5A))

/-- FREEZE_DISARM: another value written to KEY (R363). -/
def execFreezeDisarm (key : Nat) (s : State) : Host.Outcome State Fault Refusal :=
  .next (s.onLive (fun d => if key % 256 = 0xA5 ∨ key % 256 = 0x5A then d else d.fzKey (key % 256)))

/-- FREEZE_ARM_TIMEOUT: the 10 ms of the arming have passed (R358). -/
def execFreezeArmTimeout (s : State) : Host.Outcome State Fault Refusal :=
  .next (s.onLive (fun d =>
    if d.fz.armedAt.isSome && !d.fzArmed then { d with fz := { d.fz with armedAt := none } } else d))

/-- SEPIA_FREEZE: the TAP instruction, at Update-IR (R358). -/
def execSepiaFreeze (s : State) : Host.Outcome State Fault Refusal := .next (s.onLive (fun d => d.freeze 2))

/-! ### The image (R361, R362) -/

/-- Offset and size of each section of the image (R361). -/
def fzSections : List (Nat × Nat) :=
  [(0x000000, 0x1000), (0x001000, 0xF000), (0x010000, 0x10000), (0x020000, 0x20000), (0x040000, 0x40000),
   (0x080000, 0x80000), (0x100000, 0x40000), (0x140000, 0x40000), (0x180000, 0x40000), (0x1C0000, 0x40000),
   (0x200000, 0x200000), (0x400000, 0x40000), (0x440000, 0x120000), (0x560000, 0x80000), (0x5E0000, 0x20000),
   (0x600000, 0x100000)]

/-- Four bytes of the image that have no layout of their own. -/
def fzFree (img off : Nat) : Nat := leNat ((List.range 4).map (fun i => Config.fzByte img (off + i)))

/-- CRC-32 of a section other than the header, whose own covers itself and stays open (R362). -/
def fzCrc (img : Nat) (sec : Nat × Nat) : Nat :=
  crc32 ((List.range sec.2).map (fun i => (Config.fzByte img (sec.1 + i)).toNat))

/-- A word of the header's section table: ID (open), OFFSET, SIZE, CRC-32 (R362). -/
def fzEntry (img k field : Nat) : Nat :=
  let sec := (fzSections[k]?).getD (0, 0)
  match field with
  | 1 => sec.1
  | 2 => sec.2
  | 3 => if k = 0 then fzFree img 76 else fzCrc img sec
  | _ => fzFree img (64 + 16 * k)

/-- The word of the image at a byte offset (R361, R362). -/
def Dev.fzWord (d : Dev) (off : Nat) : Nat :=
  let z := d.fz
  if 320 ≤ off then fzFree z.img off
  else if 64 ≤ off then fzEntry z.img ((off - 64) / 16) (off % 16 / 4)
  else match off / 4 with
    | 0 => 1
    | 1 => 0x00700000
    | 2 => z.trigger + 256 * (b2n z.ue + 2 * b2n z.lost)
    | 3 => d.sys.epoch
    | 4 => z.lt % 2 ^ 32
    | 5 => z.lt / 2 ^ 32
    | 6 => z.sc % 2 ^ 32
    | 7 => z.sc / 2 ^ 32 % 2 ^ 32
    | 8 => d.sys.uptime % 2 ^ 32
    | 9 => d.sys.uptime / 2 ^ 32
    | 10 => d.sys.fw
    | 11 => z.mdtSeq
    | _ => 0

/-! ### The TAP (R107, R363, R364) -/

/-- SEPIA_ADDR: the byte offset for SEPIA_READ; one that is no multiple of 4 leaves an open value (R363). -/
def execSepiaAddr (off : Nat) (s : State) : Host.Outcome State Fault Refusal :=
  .next (if s.dev.sys.por then s
    else s.onDev (fun d =>
      if off % 4 = 0 then { d with fz := { d.fz with tapAddr := off % 2 ^ 32 } }
      else
        let k := d.drawn Config.freeNat
        { k.2 with fz := { k.2.fz with tapAddr := k.1 % 2 ^ 30 * 4 } }))

/-- One word shifted out of the TAP, the offset 4 further; what it holds while not frozen the manual leaves open. -/
def Dev.tapWord (d : Dev) : Dev :=
  let next := { d.fz with tapAddr := (d.fz.tapAddr + 4) % 2 ^ 32 }
  if d.fz.frozen then ({ d with fz := next } : Dev).emit (.tap (d.fzWord d.fz.tapAddr))
  else
    let k := d.drawn Config.freeNat
    ({ k.2 with fz := next } : Dev).emit (.tap (k.1 % 2 ^ 32))

/-- SEPIA_READ of a number of words (R363). -/
def execSepiaRead (n : Nat) (s : State) : Host.Outcome State Fault Refusal :=
  .next (if s.dev.sys.por then s
    else s.onDev (fun d => (List.range n).foldl (fun (d : Dev) (_ : Nat) => d.tapWord) d))

/-- SEPIA_THAW, on a frozen device without an owner key (R364): the clocks restart, the link retrains with both functions
in reset, every power stage stays held, a THAW record is queued ahead of the records still held. -/
def execSepiaThaw (s : State) : Host.Outcome State Fault Refusal :=
  .next (if !s.dev.fz.frozen || s.dev.sys.por || s.dev.sys.perst || s.dev.nvm.ownerKey.isSome then s
    else
      let s := s.onDev (fun d =>
        let d := { d with fz := { d.fz with frozen := false, thawed := true, hold := true } }
        { d with mdt := { d.mdt with queue := d.recNow 0x0F04 0 0 [] :: d.mdt.queue } })
      s.linkLost.onDev (fun d => d.holdAll))

/-- TAP_TEST_LOGIC_RESET: the debug port's locks are released (R107). -/
def execTapTestLogicReset (s : State) : Host.Outcome State Fault Refusal :=
  .next (if s.dev.live then s.releaseAll 5 else s)

end Sys2Proof.Machine
end

