-- ==== Sys2Proof/Machine/Regs.lean ====
section
/-! DEFINITION. The register map (R402–R415): what each offset reads as on each path, what reading does (R6, R105, R404),
and what a write does (R45, R58, R88, R278, R357, R363, R407). -/

namespace Sys2Proof.Machine

/-! ### What the registers read as -/

/-- Low or high half of a 64-bit register: `h` 0 or 1. -/
def half (v h : Nat) : Nat := if h = 0 then v % 2 ^ 32 else v / 2 ^ 32 % 2 ^ 32

/-- SYS_ERR of a path (R405). -/
def PathR.errWord (p : PathR) : Nat := p.ePartial + 2 ^ 8 * p.eDb + 2 ^ 16 * p.eMbx + 2 ^ 24 * p.eReg

/-- SYS_BOOT (R374). -/
def Sys.bootWord (s : Sys) : Nat :=
  s.phase + 16 * s.image + 64 * b2n s.ready + 128 * s.pstate + 1024 * b2n s.refOk + 2048 * b2n s.spll
    + 4096 * b2n s.apll

/-- TW_STAT (R333). -/
def Tw.stat (t : Tw) : Nat :=
  b2n t.sclStuck + 2 * b2n t.sdaStuck + 4 * b2n t.stretchTo + 8 * b2n t.sdaHeld + 16 * b2n t.holder + 32 * b2n t.partW
    + 64 * b2n t.awake

/-- TW_ADDR (R333). -/
def Tw.addrWord (t : Tw) : Nat := 0x58 + t.pins + 2 ^ 8 * t.addr2 + 2 ^ 15 * t.mmode + 2 ^ 16 * t.mask + 2 ^ 24 * t.stretch

/-- TW_CNT (R333). -/
def Tw.cnt (t : Tw) : Nat := t.stucks + 2 ^ 8 * t.stretches + 2 ^ 16 * t.partials + 2 ^ 24 * t.wakes

/-- Word `k` of SYS_UPTIME, SYS_LT and SYS_SC, live (R404). -/
def Dev.timeWord (d : Dev) (k : Nat) : Nat :=
  match k with
  | 0 => half d.sys.uptime 0 | 1 => half d.sys.uptime 1
  | 2 => half d.cmLt 0 | 3 => half d.cmLt 1
  | 4 => half d.cmSc 0 | _ => half d.cmSc 1

/-- SEC_LOCK (R406). -/
def Dev.secLock (d : Dev) : Nat := listMask ((List.range 48).filter (fun n => (Tab.get Env.reset d.nvm.env n).lock))

/-- Identity, system and two-wire registers (R333, R374, R403–R406). -/
def Dev.sysWord (d : Dev) (p : Path) (off : Nat) : Nat :=
  match off with
  | 0x00 => 0x1F3B
  | 0x04 => 0x00114832
  | 0x08 => d.sys.fw
  | 0x0C => d.sys.epoch
  | 0x10 => d.sys.bootWord
  | 0x18 => d.timeWord 0 | 0x1C => d.timeWord 1 | 0x20 => d.timeWord 2
  | 0x24 => d.timeWord 3 | 0x28 => d.timeWord 4 | 0x2C => d.timeWord 5
  | 0x30 => (d.path (pathNo p)).errWord
  | 0x40 => leNat ((List.range 4).map (fun k => Config.serial k))
  | 0x44 => leNat ((List.range 4).map (fun k => Config.serial (4 + k)))
  | 0x48 => leNat ((List.range 4).map (fun k => Config.serial (8 + k)))
  | 0x4C => leNat ((List.range 4).map (fun k => Config.serial (12 + k)))
  | 0x80 => d.tw.stat
  | 0x84 => d.tw.addrWord
  | 0x88 => d.tw.cnt
  | 0x100 => if p = .pf1 then half d.secLock 0 else 0
  | 0x104 => if p = .pf1 then half d.secLock 1 else 0
  | _ => 0

/-- EMG_MUTE, EMG_CFG, EMG_STAT (R278). -/
def Dev.emgWord (d : Dev) (off : Nat) : Nat :=
  let e := d.emg
  match off with
  | 0x400 => b2n e.mute + 2 * b2n e.hard + 2 ^ 16 * e.ramp
  | 0x404 => b2n e.pinHard + 2 * b2n e.outPin + 4 * b2n e.outReg + 8 * b2n e.outCmd + 16 * b2n e.outLatch
      + 32 * b2n e.pinLatch + 2 ^ 16 * e.pinRamp
  | 0x408 => b2n (e.isActive d.sys.uptime) + 2 * b2n e.pinOn + 4 * b2n e.mute + 8 * b2n e.cmdSet + 16 * b2n e.hardOn
      + 32 * b2n e.verm + 64 * b2n d.vermOut + 128 * b2n e.pinHeld + 2 ^ 16 * e.pinCount
  | _ => 0

/-- A channel's mailbox block (R88); MBX_DB and MBX_UPACK read zero. -/
def Dev.mbxWord (d : Dev) (p : Path) (off : Nat) : Nat :=
  let ch := (off - 0x800) / 32
  if !pathOwns p ch then 0
  else
    let m := d.mbx ch
    let a := (m.port (isSide p)).ackWord
    let u := if isSide p then 0 else m.upWord
    match off % 32 / 4 with
    | 2 => half a 0 | 3 => half a 1
    | 4 => half u 0 | 5 => half u 1
    | 7 => d.mbxStat (isSide p) ch
    | _ => 0

/-- Lock registers (R104). -/
def Locks.word (l : Locks) (off : Nat) : Nat :=
  if off < 0x1080 then l.value ((off - 0x1000) / 4)
  else match off with
    | 0x1080 => l.held
    | 0x1084 => l.ignored + 2 ^ 16 * l.forced
    | 0x1090 => l.own 0 | 0x1094 => l.own 1 | 0x1098 => l.own 2 | 0x109C => l.own 3
    | _ => 0

/-- Translation block of a function (R58). -/
def Dev.trnWord (d : Dev) (fn off : Nat) : Nat :=
  let f := d.fn fn
  match off with
  | 0x1100 => b2n f.trnEn + 2 * b2n f.fenced + 2 ^ 16 * f.stallTo
  | 0x1104 => d.stallCount fn % 2 ^ 16 + 2 ^ 16 * f.fltLost
  | 0x1108 => half (f.root * 4096) 0 | 0x110C => half (f.root * 4096) 1
  | 0x1118 => f.invDone + 256 * b2n (!f.invQ.isEmpty)
  | 0x1120 => half ((f.last[0]?).getD 0) 0 | 0x1124 => half ((f.last[0]?).getD 0) 1
  | 0x1128 => half ((f.last[1]?).getD 0) 0 | 0x112C => half ((f.last[1]?).getD 0) 1
  | 0x1130 => half ((f.last[2]?).getD 0) 0 | 0x1134 => half ((f.last[2]?).getD 0) 1
  | 0x1138 => half ((f.last[3]?).getD 0) 0 | 0x113C => half ((f.last[3]?).getD 0) 1
  | 0x1140 => if fn = 1 then half (f.iroot * 4096) 0 else 0
  | 0x1144 => if fn = 1 then half (f.iroot * 4096) 1 else 0
  | 0x1148 => if fn = 1 then b2n f.ien + 2 * b2n f.ifenced else 0
  | _ => 0

/-- Interrupt cause block of a function (R407). -/
def Fn.intWord (f : Fn) (off : Nat) : Nat :=
  if 0x1240 ≤ off then Tab.get 0 f.intRing ((off - 0x1240) / 4)
  else match off with
    | 0x1200 => f.causes
    | 0x1204 => f.mask
    | 0x1208 => half f.intMbx 0
    | 0x120C => half f.intMbx 1
    | _ => 0

/-- FZ_STAT, FZ_ADDR and, on the two-wire path, the Sepia aperture (R363). -/
def Dev.fzRegWord (d : Dev) (p : Path) (off : Nat) : Nat :=
  if off = 0x3004 then
    b2n d.fz.frozen + 2 * d.fz.trigger + 8 * b2n d.fz.thawed + 16 * b2n d.fz.armedAt.isSome
  else if p ≠ .tw then 0
  else if off = 0x3008 then d.fz.page * 1024
  else if 0x3400 ≤ off ∧ off < 0x3800 then (if d.fz.frozen then d.fzWord (d.fz.page * 1024 + (off - 0x3400)) else 0)
  else 0

/-- Mordant read window of a path (R357). -/
def Dev.mdtWord (d : Dev) (p : Path) (off : Nat) : Nat :=
  let r := d.path (pathNo p)
  if 0x5000 ≤ off ∧ off < 0x6000 then fld (r.apRec ((off - 0x5000) / 64)) (off % 64) 4
  else match off with
    | 0x4000 => r.wsel
    | 0x4004 => r.warea
    | 0x4008 => b2n r.wbusy + 2 * b2n r.wvalid + 4 * b2n r.wover + 8 * r.wcount
    | 0x400C => d.nvm.next
    | 0x4010 => d.nvm.ff.length + 2 ^ 16 * d.nvm.ffDropped
    | 0x4014 => d.nvm.clears + 2 ^ 16 * d.mdt.lost
    | _ => 0

/-- MSI-X table and pending-bit array of a function (R415). -/
def Fn.msixReg (f : Fn) (off : Nat) : Nat :=
  if off < 0x6800 then f.msixWord ((off - 0x6000) / 4)
  else if 0x7000 ≤ off ∧ off < 0x7010 then f.pba / 2 ^ (8 * (off - 0x7000)) % 2 ^ 32
  else 0

/-- Pilot registers (R299). -/
def Dev.pltWord (d : Dev) (off : Nat) : Nat :=
  let n := (off - 0xA000) / 0x100 * 16 + off % 0x100 / 16
  (d.chan n).pltReg (off % 16 / 4)

/-- Offsets that only the functions reach: translation, interrupt causes, MSI-X (R45, R332). -/
def fnOnly (off : Nat) : Bool := decide ((0x1100 ≤ off ∧ off < 0x2000) ∨ (0x6000 ≤ off ∧ off < 0x8000))

/-- The live value of the aligned 32-bit word at an offset on a path (R402); zero where nothing is mapped. -/
def State.word (s : State) (p : Path) (off : Nat) : Nat :=
  let d := s.dev
  if p = .tw && fnOnly off then 0
  else if off < 0x400 then d.sysWord p off
  else if off < 0x800 then d.emgWord off
  else if off < 0x1000 then d.mbxWord p off
  else if off < 0x1100 then s.locks.word off
  else if off < 0x1200 then d.trnWord (pathNo p) off
  else if off < 0x1440 then (d.fn (pathNo p)).intWord off
  else if 0x2000 ≤ off ∧ off < 0x2100 then leNat (winBytes s.win (off - 0x2000) 4)
  else if 0x3000 ≤ off ∧ off < 0x4000 then d.fzRegWord p off
  else if 0x4000 ≤ off ∧ off < 0x6000 then d.mdtWord p off
  else if 0x6000 ≤ off ∧ off < 0x8000 then (d.fn (pathNo p)).msixReg off
  else if (0x8000 ≤ off ∧ off < 0xA000) ∨ (0xB000 ≤ off ∧ off < 0xE000) then fld d.mirror (off - 0x8000) 4
  else if 0xA000 ≤ off ∧ off < 0xA300 then d.pltWord off
  else 0

/-! ### Reads (R6, R45, R105, R404) -/

/-- The path is served: a function over its link (R66), the two-wire port unless in power-on reset (R337, R370). -/
def Dev.serves (d : Dev) (p : Path) : Bool :=
  match p with
  | .tw => !d.sys.por
  | _ => d.live && d.link.up

/-- Clear the RC fields of a word of which a read covered the bytes `lo` up to `hi` (R6); none while frozen (R360). -/
def State.clearRc (s : State) (p : Path) (off lo hi : Nat) : State :=
  let hit : Nat → Nat → Bool := fun a b => decide (lo < b ∧ a < hi)
  if s.dev.fz.frozen || s.dev.sys.por then s
  else match off with
    | 0x30 => s.onDev (fun d => d.updPath (pathNo p) (fun r =>
        { r with ePartial := if hit 0 1 then 0 else r.ePartial, eDb := if hit 1 2 then 0 else r.eDb,
                 eMbx := if hit 2 3 then 0 else r.eMbx, eReg := if hit 3 4 then 0 else r.eReg }))
    | 0x88 => s.onDev (fun d =>
        let t := d.tw
        { d with tw := { t with stucks := if hit 0 1 then 0 else t.stucks, stretches := if hit 1 2 then 0 else t.stretches,
                                partials := if hit 2 3 then 0 else t.partials, wakes := if hit 3 4 then 0 else t.wakes } })
    | 0x408 => if hit 2 4 then s.onDev (fun d => { d with emg := { d.emg with pinCount := 0 } }) else s
    | 0x1084 =>
      let l := s.locks
      { s with locks := { l with ignored := if hit 0 2 then 0 else l.ignored, forced := if hit 2 4 then 0 else l.forced } }
    | 0x1104 => if hit 2 4 && p ≠ .tw then s.onDev (fun d => d.updFn (pathNo p) (fun f => { f with fltLost := 0 })) else s
    | _ =>
      if 0x800 ≤ off ∧ off < 0x1000 ∧ off % 32 = 8 ∧ lo = 0 ∧ pathOwns p ((off - 0x800) / 32) then
        s.onDev (fun d => d.ackRead (isSide p) ((off - 0x800) / 32) true)
      else s

/-- The words of a latch as taken at a read of low word `k`: the other five are held unread (R404). -/
def Dev.newLatch (d : Dev) (k : Nat) : List (Option Nat) :=
  (List.range 6).map (fun j => if j = k then none else some (d.timeWord j))

/-- A 32-bit read of word `k` of the system time registers on a path (R404): the value, and the path's latch. -/
def Dev.timeRead (d : Dev) (path k : Nat) : Nat × Dev :=
  let p := d.path path
  match (p.latch[k]?).getD none with
  | some v => (v, d.setPath path { p with latch := p.latch.set k none })
  | none =>
    if k % 2 = 0 then (d.timeWord k, d.setPath path { p with latch := d.newLatch k }) else (d.timeWord k, d)

/-- An aligned 32-bit read: time words by the latch, locks acquired, RC fields cleared. -/
def State.read32 (s : State) (p : Path) (off : Nat) : State :=
  if 0x18 ≤ off ∧ off < 0x30 then
    let r := s.dev.timeRead (pathNo p) ((off - 0x18) / 4)
    { s with dev := r.2.answer (le 4 r.1) }
  else if 0x1000 ≤ off ∧ off < 0x1080 then s.lockRead (pathNo p + 2) ((off - 0x1000) / 4)
  else
    let v := s.word p off
    (s.clearRc p off 0 4).onDev (fun d => d.answer (le 4 v))

/-- An aligned 64-bit read: each register at one instant, without a latch and without acquiring a lock. -/
def State.read64 (s : State) (p : Path) (off : Nat) : State :=
  let v := s.word p off + 2 ^ 32 * s.word p (off + 4)
  ((s.clearRc p off 0 4).clearRc p (off + 4) 0 4).onDev (fun d => d.answer (le 8 v))

/-- A read of `n` bytes at an offset of BAR0 (R45); any but the accepted forms answers zero without effect. -/
def State.busRead (s : State) (p : Path) (off n : Nat) : State :=
  if n = 4 ∧ off % 4 = 0 then s.read32 p off
  else if n = 8 ∧ off % 8 = 0 then s.read64 p off
  else if 1 ≤ n ∧ n < 4 ∧ off % 4 + n ≤ 4 then
    let w := off / 4 * 4
    let v := fld (le 4 (s.word p w)) (off % 4) n
    (s.clearRc p w (off % 4) (off % 4 + n)).onDev (fun d => d.answer (le n v))
  else s.onDev (fun d => d.answer (List.replicate n 0))

/-- Bytes of a function's configuration space from its start that hold its identity (R43); zero elsewhere. -/
def identBytes (fn : Nat) : List Nat :=
  let x := fun (k : Nat) => (pciId fn)[k]?.getD 0
  le 2 (x 0) ++ le 2 (x 1) ++ le 4 0 ++ le 1 (x 2) ++ le 3 (x 3) ++ List.replicate 32 0 ++ le 2 (x 4) ++ le 2 (x 5)

/-- What a function's configuration register of a space reads as (R42, R46, R62; log entry 13). -/
def Fn.config (f : Fn) (sp : Space) : Nat :=
  match sp with
  | .devControl => 16 * b2n f.ro + 32 * f.mps + 2 ^ 11 * b2n f.ns + 2 ^ 12 * f.mrrs
  | .devControl2 => f.cto
  | .msixControl => 127 + 2 ^ 14 * b2n f.fmask + 2 ^ 15 * b2n f.msixEn
  | .pmControl => f.dstate
  | .aerStatus => f.aer
  | .aerControl => 32 + 64 * b2n f.ecrcGen + 128 + 256 * b2n f.ecrcChk
  | _ => 0

/-- CLEAR_ON_READ: a read of `n` bytes over a path (R6, R45): BAR2 reads as zero; configuration space answers from L0 on
(R43). -/
def execClearOnRead (p : Path) (a : Loc) (n : Nat) (s : State) : Host.Outcome State Fault Refusal :=
  .next (if !s.dev.serves p then s
    else match a.sp with
      | .bar0 => s.busRead p a.off n
      | .bar2 => if p = .pf0 then s.onDev (fun d => d.answer (List.replicate n 0)) else s
      | .ident => if p = .tw then s else s.onDev (fun d => d.answer (le n (fld (identBytes (pathNo p)) a.off n)))
      | sp => if p = .tw then s else s.onDev (fun d => d.answer (le n ((d.fn (pathNo p)).config sp))))

/-- SYS_TIME_LATCH_READ: a 32-bit read of word `k` of SYS_UPTIME, SYS_LT and SYS_SC (R404). -/
def execSysTimeLatchRead (p : Path) (k : Nat) (s : State) : Host.Outcome State Fault Refusal :=
  .next (if s.dev.serves p && k < 6 then s.busRead p (0x18 + 4 * k) 4 else s)

/-! ### Writes -/

/-- Count a discarded write as PARTIAL (R405). -/
def Dev.partialWrite (d : Dev) (p : Path) : Dev := d.updPath (pathNo p) (fun r => { r with ePartial := satInc 255 r.ePartial })

/-- Count a discarded write to MBX_DB (R405). -/
def Dev.mbxIgnored (d : Dev) (p : Path) : Dev := d.updPath (pathNo p) (fun r => { r with eMbx := satInc 255 r.eMbx })

/-- After a write to the cause block that leaves an enabled cause, one message goes (R408). -/
def Dev.intAfter (d : Dev) (fn : Nat) : Dev := if (d.fn fn).pendingCauses = 0 then d else d.msix fn 0

/-- A 32-bit word written to a function's interrupt cause block (R407). -/
def Dev.intStore (d : Dev) (fn off v : Nat) : Dev :=
  let clear : Nat → Nat := fun cur => cur - (cur &&& v)
  let f := d.fn fn
  if 0x1240 ≤ off ∧ off < 0x1440 then
    let k := (off - 0x1240) / 4
    d.setFn fn { f with intRing := Tab.set f.intRing k (clear (Tab.get 0 f.intRing k)) }
  else match off with
    | 0x1200 => d.setFn fn { f with cause := f.cause - (f.cause &&& (v &&& 0x39)) }
    | 0x1204 => d.setFn fn { f with mask := v % 64 }
    | 0x1208 => d.setFn fn { f with intMbx := clear f.intMbx }
    | 0x120C => d.setFn fn { f with intMbx := f.intMbx - (f.intMbx &&& (v * 2 ^ 32)) }
    | _ => d

/-- The register at an offset belongs to the cause block proper. -/
def isInt (off : Nat) : Bool := decide (0x1240 ≤ off ∧ off < 0x1440) || decide (0x1200 ≤ off ∧ off < 0x1210)

/-- A 32-bit write to a function's interrupt cause block, and the message that it may leave due (R407, R408). -/
def Dev.intWrite (d : Dev) (fn off v : Nat) : Dev := if isInt off then (d.intStore fn off v).intAfter fn else d

/-- A 64-bit write to it: both words, one message (R408). -/
def Dev.intWrite64 (d : Dev) (fn off v : Nat) : Dev :=
  ((d.intStore fn off (v % 2 ^ 32)).intStore fn (off + 4) (v / 2 ^ 32)).intAfter fn

/-- INTERRUPT_CAUSE_WRITE: a 32-bit write of a function to its block at 0x1200–0x143F (R408). -/
def execInterruptCauseWrite (fn off v : Nat) (s : State) : Host.Outcome State Fault Refusal :=
  .next (s.onLive (fun d =>
    if d.link.up && fn < 2 && off % 4 = 0 then d.intWrite fn off (v % 2 ^ 32) else d))

/-- A 32-bit write to a function's translation block (R45, R55, R58). -/
def Dev.trnWrite32 (d : Dev) (fn off v : Nat) : Dev :=
  match off with
  | 0x1100 => d.updFn fn (fun f => { f with trnEn := bit v 0, fenced := f.fenced && !bit v 1, stallTo := bits v 31 16 })
  | 0x1108 => d.rootWrite fn false 0 v
  | 0x110C => d.rootWrite fn false 1 v
  | 0x111C =>
    if bits v 17 16 = 2 then d.abort fn (v % 2 ^ 16)
    else if bits v 17 16 = 1 then d.resumeReg fn (v % 2 ^ 16) else d
  | 0x1140 => d.rootWrite fn true 0 v
  | 0x1144 => d.rootWrite fn true 1 v
  | 0x1148 => if fn = 1 then d.updFn 1 (fun f => { f with ien := bit v 0, ifenced := f.ifenced && !bit v 1 }) else d
  | _ => d

/-- MBX_STAT (R88): DN_TMO and OVF cleared, WDRAW. -/
def Dev.mbxStatWrite (d : Dev) (side : Bool) (ch v : Nat) : Dev :=
  let d := if bit v 3 then d.withdraw side ch else d
  let d := if bit v 2 then d.updMbx ch (fun m => m.updPort side (fun p => { p with ovf := false })) else d
  if bit v 0 then d.tmoClear side ch else d

/-- A 32-bit write to a mailbox block (R88, R89). -/
def Dev.mbxWrite32 (d : Dev) (p : Path) (off v : Nat) : Dev :=
  let ch := (off - 0x800) / 32
  if !pathOwns p ch then d
  else match off % 32 / 4 with
    | 0 | 1 => d.mbxIgnored p
    | 6 => d.upAck p ch (v % 2 ^ 16) (v / 2 ^ 16)
    | 7 => d.mbxStatWrite (isSide p) ch v
    | _ => d

/-- TW_STAT (R333): the five W1C flags. -/
def Tw.clear (t : Tw) (v : Nat) : Tw :=
  { t with sclStuck := t.sclStuck && !bit v 0, sdaStuck := t.sdaStuck && !bit v 1, stretchTo := t.stretchTo && !bit v 2,
           sdaHeld := t.sdaHeld && !bit v 3, partW := t.partW && !bit v 5 }

/-- PLT_WIN of a channel (R299). -/
def Dev.pltWrite (d : Dev) (off v : Nat) : Dev :=
  if off % 16 = 12 then
    d.updChan ((off - 0xA000) / 0x100 * 16 + off % 0x100 / 16)
      (fun c => { c with diag := { c.diag with wlo := v % 2 ^ 16, whi := v / 2 ^ 16 } })
  else d

/-- A two-wire write that a stopped device still takes: FZ_ADDR and the Mordant window's controls while frozen (R360), that
window's and the port's own during PERST_N (R370). -/
def Dev.stoppedTakes (d : Dev) (off : Nat) : Bool :=
  off = 0x4000 || off = 0x4004 || (if d.fz.frozen then off = 0x3008 else off = 0x80)

/-- An aligned 32-bit write of a running device's register on a path (R402). -/
def State.write32 (s : State) (p : Path) (off v : Nat) : State :=
  if p = .tw && fnOnly off then s
  else if off = 0x80 then s.onDev (fun d => { d with tw := d.tw.clear v })
  else if off = 0x400 then s.onDev (fun d => d.emgMute v)
  else if off = 0x404 then s.onDev (fun d => d.emgCfg (pathNo p) v)
  else if off = 0x408 then s.onDev (fun d => if bit v 7 && d.emg.pinHeld then d.pinClear else d)
  else if 0x800 ≤ off ∧ off < 0x1000 then s.onDev (fun d => d.mbxWrite32 p off v)
  else if 0x1000 ≤ off ∧ off < 0x1080 then s.lockWrite (pathNo p + 2) ((off - 0x1000) / 4) v
  else if 0x1100 ≤ off ∧ off < 0x1200 then
    s.onDev (fun d =>
      if off / 8 * 8 = 0x1110 || (off / 8 * 8 = 0x1180 && p = .pf1) then d.partialWrite p else d.trnWrite32 (pathNo p) off v)
  else if 0x1200 ≤ off ∧ off < 0x1440 then s.onDev (fun d => d.intWrite (pathNo p) off v)
  else if off = 0x3000 then s.onDev (fun d => if p = .tw then d.fzKey (v % 256) else d.regIgnored (pathNo p))
  else if off = 0x3008 then (if p = .tw then s.onDev (fun d => { d with fz := { d.fz with page := bits v 22 10 } }) else s)
  else if off = 0x4000 then s.onDev (fun d => d.mdtLoad (pathNo p) v)
  else if off = 0x4004 then s.onDev (fun d => d.updPath (pathNo p) (fun r => { r with warea := v % 2 }))
  else if 0x6000 ≤ off ∧ off < 0x6800 then s.onDev (fun d => d.msixWrite (pathNo p) ((off - 0x6000) / 4) v)
  else if 0xA000 ≤ off ∧ off < 0xA300 ∧ p ≠ .tw then s.onDev (fun d => d.pltWrite off v)
  else s

/-- An aligned 64-bit write: the registers that act on one, and otherwise its two words in turn (R45). -/
def State.write64 (s : State) (p : Path) (off v : Nat) : State :=
  if 0x800 ≤ off ∧ off < 0x1000 ∧ off % 32 = 0 then
    s.onDev (fun d => if pathOwns p ((off - 0x800) / 32) then d.postNotice (isSide p) ((off - 0x800) / 32) v else d)
  else if p ≠ .tw ∧ off = 0x1110 then s.onDev (fun d => d.invalidate (pathNo p) (v % 4) (bits v 11 4) (bits v 37 12 * 4096))
  else if p ≠ .tw ∧ off = 0x1108 then s.onDev (fun d => d.rootWrite (pathNo p) false 2 v)
  else if p = .pf1 ∧ off = 0x1140 then s.onDev (fun d => d.rootWrite 1 true 2 v)
  else if p = .pf1 ∧ off = 0x1180 then s.onDev (fun d => d.doorbell 1 (v % 4096) (v / 2 ^ 32) false)
  else if p ≠ .tw ∧ isInt off then s.onDev (fun d => d.intWrite64 (pathNo p) off v)
  else (s.write32 p off (v % 2 ^ 32)).write32 p (off + 4) (v / 2 ^ 32)

/-- A narrow or misaligned write of a function (R45, R405, R415): discarded and counted; what it does to the MSI-X table
PCI Express leaves open. -/
def State.oddWrite (s : State) (p : Path) (off : Nat) : State :=
  if 0x800 ≤ off ∧ off < 0x1000 ∧ off % 32 < 8 ∧ pathOwns p ((off - 0x800) / 32) then s.onDev (fun d => d.mbxIgnored p)
  else if 0x6000 ≤ off ∧ off < 0x6800 then
    s.onDev (fun d =>
      let k := d.drawn Config.freeNat
      k.2.msixWrite (pathNo p) ((off - 0x6000) / 4) k.1)
  else s.onDev (fun d => d.partialWrite p)

/-- A write of `n` bytes to BAR0, or a committed word of the two-wire window. -/
def State.regWrite (s : State) (p : Path) (off n v : Nat) : State :=
  if !s.dev.live && !(p = .tw && s.dev.stoppedTakes off) then s
  else if n = 4 ∧ off % 4 = 0 then s.write32 p off (v % 2 ^ 32)
  else if n = 8 ∧ off % 8 = 0 then s.write64 p off (v % 2 ^ 64)
  else s.oddWrite p off

/-- A write of `n` bytes to BAR2 of PF0: a doorbell, or discarded and counted (R72, R409). -/
def Dev.bar2Write (d : Dev) (off n v : Nat) : Dev :=
  d.doorbell 0 (off / 8) (v % 2 ^ 32) (!((n = 4 ∨ n = 8) && off % 8 = 0))

/-- A write of a function's configuration register (R42, R46, R62; log entry 13): Relaxed Ordering, No Snoop, payload and
read request sizes; the completion timeout; MSI-X control; the power state; AER status, whose bits are cleared by writing
1; ECRC generation and checking. -/
def Dev.configWrite (d : Dev) (fn : Nat) (sp : Space) (v : Nat) : Dev :=
  match sp with
  | .devControl => d.updFn fn (fun f => { f with ro := bit v 4, ns := bit v 11, mps := if bits v 7 5 = 0 then 0 else 1, mrrs := bits v 14 12 })
  | .devControl2 => d.updFn fn (fun f => { f with cto := v % 16 })
  | .msixControl => d.msixControl fn v
  | .pmControl => d.updFn fn (fun f => { f with dstate := if v % 4 = 0 ∨ v % 4 = 3 then v % 4 else f.dstate })
  | .aerStatus => d.updFn fn (fun f => { f with aer := f.aer - (f.aer &&& v) })
  | .aerControl => d.updFn fn (fun f => { f with ecrcGen := bit v 6, ecrcChk := bit v 8 })
  | _ => d

/-- A host write arrives bad, poisoned or (`ecrc`) with an ECRC error that the function checks for: its AER bit; none if it
arrives well (R63). -/
def Dev.badWrite (d : Dev) (p : Path) (bad : Option Bool) : Option Nat :=
  match bad with
  | some true => if p ≠ .tw && (d.fn (pathNo p)).ecrcChk then some 19 else none
  | some false => if p ≠ .tw then some 12 else none
  | none => none

/-- REGISTER_WRITE: a write of `n` bytes by a path to one of the device's register spaces (R6, R45, R409); a poisoned one,
or one with an ECRC error, is discarded with its AER entry (R63). -/
def execRegisterWrite (p : Path) (a : Loc) (n v : Nat) (bad : Option Bool) (s : State) : Host.Outcome State Fault Refusal :=
  .next (if !s.dev.serves p then s
    else match s.dev.badWrite p bad, a.sp with
      | some k, _ => s.onDev (fun d => d.aerSet (pathNo p) k)
      | none, .bar0 => if a.off < 0x10000 then s.regWrite p a.off n v else s
      | none, .bar2 => if p = .pf0 && a.off < 0x8000 then s.onDev (fun d => d.bar2Write a.off n v) else s
      | none, sp => if p = .tw then s else s.onDev (fun d => d.configWrite (pathNo p) sp v))

end Sys2Proof.Machine
end

