-- ==== Sys2Proof/Machine/Window.lean ====
section
/-! DEFINITION. The sideband window (R102): 256 bytes of SRAM as a sorted list of cells, an unlisted byte being zero. -/

namespace Sys2Proof.Machine

/-- The byte at an offset. -/
def Memory.read (w : List Host.Cell) (a : Nat) : Byte := Tab.get 0 w a

/-- The list without the entry of an offset. -/
def Memory.drop (w : List Host.Cell) (a : Nat) : List Host.Cell := w.filter (fun c => c.1 ≠ a)

/-- Write one byte: writing zero, which an unlisted offset reads as, removes the entry; offsets beyond the window do not
exist. -/
def Memory.write (w : List Host.Cell) (a : Nat) (b : Byte) : List Host.Cell :=
  if 256 ≤ a then w else if b = 0 then Memory.drop w a else Tab.set w a b

/-- Write bytes from an offset on. -/
def Memory.writeAll (w : List Host.Cell) (a : Nat) : List Byte → List Host.Cell
  | [] => w
  | b :: t => Memory.writeAll (Memory.write w a b) (a + 1) t

/-- The list is canonical: offsets strictly rising from `lo`, below 256, no zero byte listed. -/
def Memory.wfFrom (lo : Nat) : List Host.Cell → Bool
  | [] => true
  | c :: t => decide (lo ≤ c.1 ∧ c.1 < 256) && c.2 ≠ 0 && Memory.wfFrom (c.1 + 1) t

/-- The canonical form. -/
def Memory.wf (w : List Host.Cell) : Bool := Memory.wfFrom 0 w

end Sys2Proof.Machine
end

