-- ==== Sys2Proof/Machine/TwoWire.lean ====
section
/-! DEFINITION. The two-wire target (R325–R338): addressing, writes and reads through the window, stuck lines, sleep, and
TW_CONFIG (R140). -/

namespace Sys2Proof.Machine

/-- Change the two-wire block. -/
def Dev.updTw (d : Dev) (f : Tw → Tw) : Dev := { d with tw := f d.tw }

/-! ### The end of a transfer (R329, R334–R336) -/

/-- Bytes of a word that was not completed are discarded: PARTIAL, counted, those of MBX_DB in MBX_IGNORED as well
(R89); not while frozen (R329, R360). -/
def Dev.twDiscard (d : Dev) : Dev :=
  match d.tw.word with
  | [] => d
  | (p, _) :: _ =>
    if d.fz.frozen then d.updTw (fun t => { t with word := [] })
    else
      let d := d.updTw (fun t => { t with word := [], partW := true, partials := satInc 255 t.partials })
      if d.live && decide (0xFC0 ≤ p ∧ p < 0xFC8) then d.mbxIgnored .tw else d

/-- TW_CONFIG settings that waited for the end of the bus transaction apply (R140). -/
def Tw.settle (t : Tw) : Tw :=
  match t.next with
  | some (a, m, k, s) => { t with addr2 := a, mmode := m, mask := k, stretch := s, next := none, expert := true }
  | none => t

/-- The port's state machine goes to a state with nothing in hand. -/
def Dev.twReset (d : Dev) (x : TwX) : Dev :=
  d.twDiscard.updTw (fun t =>
    { t.settle with x := x, group := false, snap := [], live := false, first := false, suspended := false })

/-- TW_BUS for cause bit `k`: an event and a record, at most one of a cause within a second (R335). -/
def Dev.twBus (d : Dev) (k : Nat) : Dev :=
  let last := d.tw.seen.find? (fun p => p.1 = k)
  let quiet : Bool := match last with | some p => decide (p.2 + 1000000 ≤ d.sys.uptime) | none => true
  if quiet && d.live then
    (d.updTw (fun t => { t with seen := (k, d.sys.uptime) :: t.seen.filter (fun p => p.1 ≠ k) })).alarm 0x010E 0 (2 ^ k)
  else d

/-- The port is powered: not in power-on reset (R337). -/
def Dev.twOn (d : Dev) : Bool := !d.sys.por

/-! ### Addressing (R326, R337) -/

/-- How an address matches: `some true` a group access under the mask, `some false` an address of the device's own. -/
def Tw.matches_ (t : Tw) (a : Nat) : Option Bool :=
  if a < 8 ∨ 0x78 ≤ a then none
  else if a = 0x58 + t.pins then some false
  else if t.addr2 = 0 then none
  else if t.mmode = 0 then (if a = t.addr2 then some false else none)
  else if a &&& t.mask = t.addr2 &&& t.mask then some true else none

/-- A START with an address (R326, R328, R337): acknowledged, ignored, or the wake of a sleeping port. -/
def Dev.twAddress (d : Dev) (a : Nat) (read : Bool) : Dev :=
  let d := d.twDiscard.updTw (fun t => { t with snap := [], live := false, first := false, suspended := false, group := false })
  match d.tw.matches_ a with
  | none => d.updTw (fun t => { t with x := .ignore })
  | some g =>
    if !d.tw.awake then
      d.updTw (fun t => if t.waking then { t with x := .ignore } else { t with x := .ignore, waking := true, wakes := satInc 255 t.wakes })
    else if read && g then d.updTw (fun t => { t with x := .ignore })
    else if read then d.updTw (fun t => { t with x := .read, live := decide (t.ptr % 4 ≠ 0), first := true })
    else d.updTw (fun t => { t with x := .ptrHi, group := g })

/-- Keep whether the byte just received is acknowledged: every one is that the port takes in (R326, R329). -/
def Dev.twAck (d : Dev) (on : Bool) : Dev := d.updTw (fun t => { t with ack := on })

/-- TW_ADDRESS: a START, or repeated START, and the address byte (R326). -/
def execTwAddress (a : Nat) (read : Bool) (s : State) : Host.Outcome State Fault Refusal :=
  .next (if s.dev.twOn then s.onDev (fun d => let d := d.twAddress (a % 128) read; d.twAck (d.tw.x ≠ .ignore)) else s)

/-! ### Writing (R328, R329) -/

/-- The offset is in the sideband window. -/
def inWindow (p : Nat) : Bool := decide (0x2000 ≤ p ∧ p < 0x2100)

/-- Width in bytes of the register that an offset of the two-wire window lies in (R402). -/
def unitOf (p : Nat) : Nat :=
  if (0x18 ≤ p ∧ p < 0x30) ∨ (0xFC0 ≤ p ∧ p < 0xFD8) then 8 else 4

/-- The pointer after a written byte: it wraps within its 32-byte page (R328). -/
def nextWrite (p : Nat) : Nat := if p % 32 = 31 then p - 31 else p + 1

/-- A data byte outside the sideband window joins its word; the last one commits it if all are there, else the word is
discarded as the transfer moves on (R329). -/
def State.twByte (s : State) (b : Nat) : State :=
  let p := s.dev.tw.ptr
  let u := unitOf p
  let base := p / u * u
  let other : Bool := match s.dev.tw.word with | [] => false | (o, _) :: _ => decide (o / u * u ≠ base)
  let s := if other then s.onDev (fun d => d.twDiscard) else s
  let word := s.dev.tw.word ++ [(p, b)]
  if p = base + u - 1 && word.map (·.1) = (List.range u).map (fun i => base + i) then
    (s.onDev (fun d => d.updTw (fun t => { t with word := [] }))).regWrite .tw base u (ofLe (word.map (·.2)))
  else s.onDev (fun d => d.updTw (fun t => { t with word := word }))

/-- A data byte of a write (R328, R329): stored at once in the sideband window, unless the device stands still. -/
def State.twData (s : State) (b : Nat) : State :=
  let p := s.dev.tw.ptr
  let s :=
    if inWindow p then
      let s := s.onDev (fun d => d.twDiscard)
      if s.dev.live then { s with win := Memory.write s.win (p - 0x2000) (BitVec.ofNat 8 b) } else s
    else s.twByte b
  s.onDev (fun d => d.updTw (fun t => { t with ptr := nextWrite t.ptr }))

/-- TW_WRITE_BYTE: the pointer's two bytes, then data (R328). -/
def execTwWriteByte (b : Nat) (s : State) : Host.Outcome State Fault Refusal :=
  .next (if !s.dev.twOn then s
    else
      let s := s.onDev (fun d => d.twAck (d.tw.x = .ptrHi || d.tw.x = .ptrLo || d.tw.x = .write))
      match s.dev.tw.x with
      | .ptrHi => s.onDev (fun d => d.updTw (fun t => { t with ptr := b % 256 * 256 + t.ptr % 256, x := .ptrLo }))
      | .ptrLo => s.onDev (fun d => d.updTw (fun t => { t with ptr := t.ptr / 256 * 256 + b % 256, x := .write }))
      | .write => s.twData (b % 256)
      | _ => s)

/-! ### Reading (R330) -/

/-- Bytes from an offset, word by word. -/
def State.bytesAt (s : State) (p n : Nat) : List Nat :=
  ((List.range (n / 4)).map (fun k => le 4 (s.word .tw (p + 4 * k)))).flatten

/-- Take the snapshot at byte 0 of a word, with the read's side effects on the whole register (R330); both time registers
where the read begins at SYS_LT (R404). A Mordant load is waited for (R357). -/
def State.twSnap (s : State) : State :=
  let p := s.dev.tw.ptr
  let s := if decide (0x5000 ≤ p ∧ p < 0x6000) && (s.dev.path 2).wbusy then s.onDev (fun d => d.mdtLoaded 2) else s
  let n := if p = 0x20 ∧ s.dev.tw.first then 16 else unitOf p - p % unitOf p
  let bytes := s.bytesAt p n
  let s :=
    if 0x1000 ≤ p ∧ p < 0x1080 then s.lockRead 4 ((p - 0x1000) / 4)
    else if p % unitOf p = 0 then s.clearRc .tw p 0 4
    else s
  s.onDev (fun d => d.updTw (fun t => { t with snap := bytes }))

/-- The next byte of a read: from the snapshot, or live where the read began inside a word (R330). -/
def State.twRead (s : State) : State :=
  let s := if s.dev.tw.ptr % 4 = 0 && s.dev.tw.snap.isEmpty then s.twSnap else s
  let t := s.dev.tw
  let b := match t.snap with
    | v :: _ => v
    | [] => fld (le 4 (s.word .tw (t.ptr / 4 * 4))) (t.ptr % 4) 1
  s.onDev (fun d => (d.updTw (fun t =>
    { t with snap := t.snap.drop 1, ptr := (t.ptr + 1) % 65536, first := false,
             live := t.live && decide ((t.ptr + 1) % 4 ≠ 0) })).answer [b])

/-- TW_READ_BYTE: the next byte of a read transfer that is not suspended (R328, R330, R336). -/
def execTwReadByte (s : State) : Host.Outcome State Fault Refusal :=
  .next (if s.dev.twOn && s.dev.tw.x = .read && !s.dev.tw.suspended then s.twRead else s)

/-! ### Stop, stuck lines, sleep (R329, R334–R337) -/

/-- TW_STOP (R329). -/
def execTwStop (s : State) : Host.Outcome State Fault Refusal :=
  .next (if s.dev.twOn then s.onDev (fun d => (d.twReset .idle).updTw (fun t => { t with stopAt := d.sys.uptime })) else s)

/-- STRETCH_TO: a stretch reaches the limit and the block resets itself; the controller reads 0xFF for an abandoned byte
(R334). -/
def execStretchTo (s : State) : Host.Outcome State Fault Refusal :=
  .next (if !s.dev.twOn then s
    else s.onDev (fun d =>
      let d := if d.tw.x = .read then d.answer [255] else d
      let d := (d.twReset .ignore).updTw (fun t => { t with ptr := 0 })
      if d.fz.frozen then d
      else (d.updTw (fun t => { t with stretchTo := true, stretches := satInc 255 t.stretches })).twBus 2))

/-- SCL_STUCK: SCL was low for more than 25 ms (R335). -/
def execSclStuck (s : State) : Host.Outcome State Fault Refusal :=
  .next (if !s.dev.twOn then s
    else s.onDev (fun d =>
      let d := d.twReset .ignore
      if d.fz.frozen then d
      else (d.updTw (fun t => { t with sclStuck := true, stucks := satInc 255 t.stucks })).twBus 0))

/-- SDA_STUCK: SDA was low for more than 25 ms while SCL was high; `driving` says that the device drove it (R335). -/
def execSdaStuck (driving : Bool) (s : State) : Host.Outcome State Fault Refusal :=
  .next (if !s.dev.twOn then s
    else s.onDev (fun d =>
      let d := d.twReset .ignore
      if d.fz.frozen then d
      else (d.updTw (fun t => { t with sdaStuck := true, holder := driving, stucks := satInc 255 t.stucks })).twBus 1))

/-- TW_SUSPEND: SCL has been static for more than 100 µs while the device drives SDA low inside a read (R336). -/
def execTwSuspend (s : State) : Host.Outcome State Fault Refusal :=
  .next (if s.dev.twOn && s.dev.tw.x = .read then s.onDev (fun d => d.updTw (fun t => { t with suspended := true })) else s)

/-- SDA_HELD: the SCL pulse after a suspended read releases SDA and abandons the transfer (R336). -/
def execSdaHeld (s : State) : Host.Outcome State Fault Refusal :=
  .next (if !s.dev.twOn || !s.dev.tw.suspended then s
    else s.onDev (fun d =>
      let d := d.twReset .ignore
      if d.fz.frozen then d else (d.updTw (fun t => { t with sdaHeld := true })).twBus 3))

/-- TW_SLEEP_TIMEOUT: in SLEEP, 100 ms after the last STOP, the port sleeps again (R337). -/
def execTwSleepTimeout (s : State) : Host.Outcome State Fault Refusal :=
  .next (s.onLive (fun d =>
    if d.sys.pstate = 2 && d.tw.awake && d.tw.x = .idle && decide (d.tw.stopAt + 100000 ≤ d.sys.uptime) then
      d.updTw (fun t => { t with awake := false, waking := false })
    else d))

/-- TW_WAKE_READY: the woken port is ready (R337). -/
def execTwWakeReady (s : State) : Host.Outcome State Fault Refusal :=
  .next (if s.dev.twOn && s.dev.tw.waking then
    s.onDev (fun d => d.updTw (fun t => { t with awake := true, waking := false, stopAt := d.sys.uptime }))
  else s)

/-! ### TW_CONFIG (R140, R326) -/

/-- TW_CONFIG: an ADDR2 that never matches, or one of the primary addresses, is out of range. -/
def checkTwConfig (addr2 mmode mask stretch : Nat) : Option Nat :=
  firstFail [(out addr2 0 127 || decide (1 ≤ addr2 ∧ addr2 ≤ 7) || decide (0x58 ≤ addr2 ∧ addr2 ≤ 0x5F) || decide (0x78 ≤ addr2)
    || out mmode 0 1 || out mask 0 127 || out stretch 1 10, OUT_OF_RANGE)]

/-- TW_CONFIG takes effect after the bus transaction in progress. -/
def applyTwConfig (d : Dev) (addr2 mmode mask stretch : Nat) : Dev :=
  d.updTw (fun t =>
    let t' := { t with next := some (addr2, mmode, mask, stretch) }
    if t.x = .idle then t'.settle else t')

end Sys2Proof.Machine
end

