-- ==== Sys2Proof/Machine/Command.lean ====
section
/-! DEFINITION. Ramcen commands (R110–R121): tag and ordered checks, scheduling, commit and completion, shared by the 74
commands of R136–R158. -/

namespace Sys2Proof.Machine

/-! ### Checks (R116) -/

/-- GET_SUMMARY: one per sender at a time (R125). -/
def checkGetSummary (d : Dev) (sender self : Nat) : Option Nat :=
  if d.tags.any (fun e => e.1 ≠ self && e.2.st = .active && e.2.sender = sender && e.2.cmd = some .getSummary)
  then some BUSY else none

/-- Steps 2 and 6–9 of R116 for the values of a command. -/
def Dev.checkCmd (d : Dev) (sender self : Nat) (c : Cmd) : Option Nat :=
  match c with
  | .getInfo => none
  | .getSummary => checkGetSummary d sender self
  | .cancel t => checkCancel d sender self t
  | .tbRate m r dr l => checkTbRate d m r dr l
  | .tbEnable m e => checkTbEnable d m e
  | .tbTiming m k c l h => checkTbTiming d m k c l h
  | .tbDpll m b => checkTbDpll d m b
  | .tbClockmaster m => checkTbClockmaster d m
  | .tbPair a b e o => checkTbPair d a b e o
  | .mbxConfig ch st cp v t u => checkMbxConfig d sender ch st cp v t u
  | .restart m => checkRestart d m
  | .powerState st => checkPowerState d self st
  | .twConfig a m k t => checkTwConfig a m k t
  | .chEnable m e dm => checkChEnable d m e dm
  | .chVolume m v r => checkChVolume d m v r
  | .chMute m x r => checkChMute d m x r
  | .chBridge p => checkChBridge d p
  | .chLoop m k => checkChLoop d m k
  | .chCarrier m p q _ => checkChCarrier d m p q
  | .chZcto m z => checkChZcto d m z
  | .chStatus ch => checkChStatus d ch
  | .objSource o s dm b p => checkObjSource d sender o s dm b p
  | .objPosition o _ g => checkObjPosition d o g
  | .objBulkdelay o x l => checkObjBulkdelay d sender o x l
  | .ctxWrite n es => checkCtxWrite d n es
  | .shapeLoad f n _ => checkShapeLoad d f n
  | .geometry f n _ => checkGeometry d f n
  | .panLaw l p => checkPanLaw d l p
  | .sceneConfig m e p r => checkSceneConfig d sender m e p r
  | .objBasic o => checkObjBasic d o
  | .portPreset p k r m => checkPortPreset d p k r m
  | .portFormat p s w o f q r m => checkPortFormat d p s w o f q r m
  | .portEnable p e r t => checkPortEnable d sender p e r t
  | .portMask p _ _ => checkPortMask d p
  | .portSlip p g w z => checkPortSlip d p g w z
  | .portRoute p l => checkPortRoute d p l
  | .pdmConfig k m g => checkPdmConfig d k m g
  | .protProfile m p => checkProtProfile d m p
  | .protThermal m k => checkProtThermal d sender m k
  | .protTs m t => checkProtTs d sender m t
  | .protLimits m v t x p => checkProtLimits d m v t x p
  | .railBudget b => checkRailBudget d b
  | .diagRun m t w => checkDiagRun d m t w
  | .diagTones m w fl fh l u => checkDiagTones d m w fl fh l u
  | .pilot m e f l => checkPilot d m e f l
  | .acoustic m k st w l => checkAcoustic d m k st w l
  | .quietWindows n w => checkQuietWindows d n w
  | .measBind k => checkMeasBind d sender k
  | .ringSetup k x => checkRingSetup d sender k x
  | .ringDestroy k => checkRingDestroy d sender k
  | .isoReserve r w => checkIsoReserve d r w
  | .envSet m v t x p r l => checkEnvSet d m v t x p r l
  | .authChallenge => none
  | .envUnlock m _ => checkChans d m
  | .ownerKey _ _ => none
  | .stage t o l s => checkStage d t o l s
  | .stageCommit t => checkStageCommit d t
  | .activate i n => checkActivate d i n
  | .mordantClear a _ => checkMordantClear d a
  | .mdtInfo => none
  | .mdtExport a f n r => checkMdtExport d sender a f n r
  | .mdtNote _ _ => checkMdtNote d sender
  | .decPreset m p => checkDecPreset d m p
  | .decFir m b n _ => checkDecFir d m b n
  | .decSwap m => checkDecSwap d m
  | .decDcblock m k f => checkDecDcblock d m k f
  | .dsync => none
  | .policy x o t => checkPolicy d x o t
  | .ocLimits m i n t w y _ => checkOcLimits d m i n t w y
  | .thLimits x t => checkThLimits d x t
  | .dcLimits m v t e => checkDcLimits d m v t e
  | .faultClear m => checkChans d m
  | .emgMuteCmd s h r => checkEmgMuteCmd d s h r
  | .faultCounters m => checkMask m

/-- Status with which a command is refused after its payload has been read: resources it may not name, reserved fields,
ranges, envelope, a stamp in a DISABLED domain, states (R116, R418). -/
def Dev.refuse (d : Dev) (n : Nat) (h : Hdr) (c : Cmd) : Option Nat :=
  let r := d.checkCmd (d.tag n).sender n c
  let off : Bool := h.atLt && (d.dom h.domain).st = .disabled
  match r with
  | some st =>
    if st = NOT_PERMITTED then r
    else if h.rsvd ≠ 0 then some OUT_OF_RANGE
    else if off && st = HW_FAULT then some BUSY
    else r
  | none => if h.rsvd ≠ 0 then some OUT_OF_RANGE else if off then some BUSY else none

/-! ### Effect -/

/-- Channels of a mask in a domain. -/
def Dev.chIn (d : Dev) (mask r : Nat) : Nat := listMask ((chList mask).filter (fun n => (d.chan n).dom = r))
/-- Chains of a mask in a domain. -/
def Dev.dcIn (d : Dev) (mask r : Nat) : Nat := listMask ((chainList mask).filter (fun c => d.chainDom c = r))

/-- The domains whose resources a command changes; the clock-master domain where it names none (R118). -/
def Dev.domsOf (d : Dev) (c : Cmd) : List Nat :=
  let chs := fun (m : Nat) => ((chList m).map (fun n => (d.chan n).dom)).eraseDups
  match c with
  | .chEnable m e dm => if e = 1 then [dm] else chs m
  | .chVolume m .. | .chMute m .. | .chLoop m .. | .chCarrier m .. | .chZcto m .. | .protProfile m ..
  | .protThermal m .. | .protTs m .. | .protLimits m .. | .diagRun m .. | .diagTones m .. | .pilot m .. | .acoustic m ..
  | .envSet m .. | .envUnlock m .. | .ocLimits m .. | .dcLimits m .. | .faultClear m => chs m
  | .objSource o s dm .. => [if s = 0 then (d.obj o).dom else dm]
  | .objPosition o .. | .objBulkdelay o .. | .objBasic o => [(d.obj o).dom]
  | .ctxWrite _ es => (es.map (fun e => (d.obj (e.ctx / 48)).dom)).eraseDups
  | .sceneConfig m .. | .tbTiming m .. | .tbDpll m .. | .tbEnable m .. => [m]
  | .portEnable p .. | .portMask p .. | .portSlip p .. | .portRoute p .. => [(d.port p).dom]
  | .decPreset m _ | .decFir m .. | .decSwap m | .decDcblock m .. => ((chainList m).map d.chainDom).eraseDups
  | _ => [d.tb.master]

/-- A stamped render command waits for the planning of the contexts whose targets it changed (R185). -/
def Dev.planWait (d : Dev) (n : Nat) (l : List Nat) : Dev :=
  if !(d.tag n).atLt then d
  else
    let w := l.filter (fun c => (d.ctx c).work && d.renders (d.obj (c / 48)).dom)
    d.updTag n (fun t => { t with ctxs := t.ctxs ++ w })

/-- A test starts, or waits for a window with WHEN = 1 and counts as not started (R285, R296). -/
def Dev.testEffect (d : Dev) (n mask when_ : Nat) : Dev :=
  let d := d.updTag n (fun t => if when_ = 1 then { t with ph := .sched, done := [] } else { t with ph := .long })
  applyTest d mask when_

/-- The effect of a system, ring, secure or Mordant command. -/
def Dev.effectA (d : Dev) (n : Nat) (c : Cmd) : Dev :=
  let sender := (d.tag n).sender
  match c with
  | .getInfo => applyGetInfo d n
  | .cancel t => applyCancel d n t
  | .tbRate m r dr l => applyTbRate d m r dr l
  | .tbEnable m e => applyTbEnable d n m e
  | .tbTiming m k c l h => applyTbTiming d m k c l h
  | .tbDpll m b => applyTbDpll d m b
  | .tbClockmaster m => (applyTbClockmaster d m).portsRole
  | .tbPair _ _ e o => (applyTbPair d e o).portsRole
  | .mbxConfig ch st cp v t u => applyMbxConfig d ch st cp v t u
  | .restart _ => applyRestart d n
  | .powerState st => applyPowerState (d.updTag n (fun t => { t with ph := .sched })) n st
  | .twConfig a m k t => applyTwConfig d a m k t
  | .quietWindows _ w => applyQuietWindows d w
  | .measBind k => applyMeasBind d k
  | .ringSetup k x => applyRingSetup d sender k x
  | .ringDestroy k => applyRingDestroy d n k
  | .isoReserve r w => applyIsoReserve d r w
  | .authChallenge => let e := applyAuthChallenge d; e.setResult n ((e.nonce.getD (0, 0)).1)
  | .ownerKey _ _ => applyOwnerKey d n
  | .stage t o l _ => applyStage d n t o l
  | .stageCommit t => applyStageCommit d n t
  | .activate i w => applyActivate d n i w
  | .mordantClear a _ => applyMordantClear d n a
  | .mdtInfo => d.setResult n d.mdtInfo
  | .mdtExport a f k r => applyMdtExport d n a f k r
  | .mdtNote k b => applyMdtNote d sender k b
  | .emgMuteCmd s h r => applyEmgMuteCmd d s h r
  | .faultCounters m => applyFaultCounters d n m
  | _ => d

/-- The effect of a channel, protection, diagnostic, decimation or fault command on the resources of domain `r` from
sample `s`, in the block that begins at `b`. -/
def Dev.effectC (d : Dev) (n : Nat) (c : Cmd) (r b s : Nat) : Dev :=
  match c with
  | .chEnable m e dm => if e = 1 then applyChOn d n m dm s else applyChOff d n (d.chIn m r)
  | .chVolume m v p => applyChVolume d (d.chIn m r) v p
  | .chMute m x p => applyChMute d n (d.chIn m r) x p (s - b)
  | .chBridge p => applyChBridge d p
  | .chLoop m k => applyChLoop d (d.chIn m r) k
  | .chCarrier m p q f => applyChCarrier d (if p = 0 then d.chIn m r else m) p q f
  | .chZcto m z => applyChZcto d (d.chIn m r) z
  | .chStatus ch => (d.writeOut n 0 (d.chanRec ch)).setResult n (d.chResult ch)
  | .pdmConfig k m g => applyPdmConfig d k m g
  | .protProfile m p => applyProtProfile d (d.chIn m r) p
  | .protThermal m k => applyProtThermal d (d.chIn m r) k
  | .protTs m t => applyProtTs d (d.chIn m r) t
  | .protLimits m v t x p => applyProtLimits d (d.chIn m r) v t x p
  | .railBudget x => applyRailBudget d x
  | .diagRun m _ w => d.testEffect n (d.chIn m r) w
  | .diagTones m w .. => d.testEffect n (d.chIn m r) w
  | .acoustic m _ _ w _ => if (d.tag n).effs.isEmpty then d.testEffect n m w else d
  | .pilot m e f l => applyPilot d n (d.chIn m r) e f l
  | .envSet m v t x p k l => applyEnvSet d (d.chIn m r) v t x p k l
  | .envUnlock m _ => applyEnvUnlock d (d.chIn m r)
  | .decPreset m p => applyDecPreset d n (d.dcIn m r) p
  | .decFir m k _ l => applyDecFir d (d.dcIn m r) k l
  | .decSwap m => applyDecSwap d (d.dcIn m r)
  | .decDcblock m k f => applyDecDcblock d (d.dcIn m r) k f
  | .dsync => applyDsync d (d.ltOfSc r s)
  | .policy x o t => applyPolicy d x o t
  | .ocLimits m i k t w y l => applyOcLimits d (d.chIn m r) i k t w y l
  | .thLimits x t => applyThLimits d x t
  | .dcLimits m v t e => applyDcLimits d (d.chIn m r) v t e
  | .faultClear m => applyFaultClear d n (d.chIn m r)
  | c => d.effectA n c

/-- The effect of a command on the resources of domain `r` from sample `s`, in the block that begins at `b`. -/
def Dev.effect (d : Dev) (n : Nat) (c : Cmd) (r b s : Nat) : Dev :=
  match c with
  | .objSource o x dm k p => if x = 0 then d.objStop n o (s - b) else applyObjSource d o x dm k p s
  | .objPosition o p g => (applyObjPosition d o p g).planWait n (d.liveOf o)
  | .objBulkdelay o x l => (applyObjBulkdelay d o x l).planWait n (d.liveOf o)
  | .ctxWrite _ es =>
    let l := es.filter (fun e => (d.obj (e.ctx / 48)).dom = r)
    (applyCtxWrite d l).planWait n (l.map (·.ctx))
  | .shapeLoad f k t => applyShapeLoad d f k t
  | .geometry f k p => (applyGeometry d f k p).planWait n (d.basicObjs.flatMap d.liveOf)
  | .panLaw l p => (applyPanLaw d l p).planWait n (d.basicObjs.flatMap d.liveOf)
  | .sceneConfig m e p k => applySceneConfig d m e p k
  | .objBasic o => (applyObjBasic d o).planWait n (d.liveOf o)
  | .portPreset p k x m => applyPortPreset d p k x m
  | .portFormat p a w o f q x m => applyPortFormat d p a w o f q x m
  | .portEnable p e x t => if e = 1 then applyPortOn d p x t s else applyPortOff d n p s
  | .portMask p x t => applyPortMask d p x t
  | .portSlip p g w z => applyPortSlip d p g w z
  | .portRoute p l => applyPortRoute d p l
  | c => d.effectC n c r b s

/-- The record of ENV_SET and of ENV_UNLOCK goes with the last commit, with the whole mask (R351). -/
def Dev.envRecord (d : Dev) (n : Nat) (t : Tag) : Dev :=
  match t.cmd with
  | some (.envSet m ..) => d.secureChange 0x0800 m n
  | some (.envUnlock m _) => d.secureChange 0x0802 m n
  | _ => d

/-- A command whose parts have all been committed and that waits for nothing more completes (R119, R123). -/
def Dev.settle (d : Dev) (n : Nat) : Dev :=
  let t := d.tag n
  if t.st ≠ .active || !t.effs.isEmpty || t.waits ≠ 0 || !t.ctxs.isEmpty then d
  else match t.ph, t.cmd with
    | .applied, some .getSummary => d.setTag n { t with ph := .sched }
    | .applied, _ => (d.envRecord n t).complete n
    | .long, some (.mdtExport ..) => d
    | .long, _ => d.complete n
    | .ending, some (.pilot ..) => (d.setResult n t.disResult).complete n
    | .ending, some (.chEnable m ..) =>
      let dm := (d.chan ((chList m).headD 0)).dom
      d.endDisable n dm (d.ltNow dm)
    | _, _ => d

/-! ### Scheduling and commit (R33–R35, R118) -/

/-- Channels whose silence a disable of channels waits for, in all their domains together (R123). -/
def Dev.stopMask (d : Dev) (c : Cmd) : Nat :=
  listMask ((Cmd.disables c).flatMap (fun i => match i with | .chan n => d.mates n | _ => []))

/-- The domain that a command reports which acts now on some domains: its one running domain, else the clock master
(R119). -/
def Dev.nowDom (d : Dev) (rs : List Nat) : Nat :=
  let on := rs.filter (fun r => (d.dom r).st ≠ .disabled)
  if on.length = 1 && rs.length = 1 then on.headD 0 else d.tb.master

/-- The command acts now, at acceptance (R133 A and D, R418). -/
def Dev.actNow (d : Dev) (n : Nat) (c : Cmd) (rs : List Nat) : Dev :=
  let d := d.updTag n (fun t => { t with ph := .applied, waits := t.waits ||| d.stopMask c, ltDom := d.nowDom rs })
  let multi : Bool := match c with | .getSummary => false | _ => true
  (if multi then d.forEach rs (fun r d => d.effect n c r 0 0) else d).settle n

/-- A stamped DEC_FIR finds its bank in use, taken by a DEC_SWAP of the block or pending one (R157, R162). -/
def Dev.firTaken (d : Dev) (c : Cmd) : Bool :=
  match c with
  | .decFir m k n _ => (checkDecFir d m k n).isSome
  | _ => false

/-- Commit a command on domain `r`, timed by domain `x`, from sample `s` of the block that begins at `b`; `late` when its
natural place has passed. -/
def Dev.commit (d : Dev) (n r x b s : Nat) (late : Bool) : Dev :=
  let t := d.tag n
  let rest := t.effs.filter (fun e => e.1 ≠ r)
  let d := d.setTag n { t with effs := rest, done := t.done ++ [(x, s)], late := t.late || late, lockWait := false,
                               ph := if t.ph = .sched && rest.isEmpty then .applied else t.ph }
  match t.cmd with
  | some c => if t.done.isEmpty && d.firTaken c then d.fail n BUSY else (d.effect n c r b s).settle n
  | none => d

/-- A stamped DEC_SWAP or DSYNC is armed in the hardware scheduler (R121). -/
def Tag.armed (t : Tag) : Bool :=
  t.atLt && (match t.cmd with | some (.decSwap _) | some .dsync => true | _ => false)

/-- The tag waits for a commit that may happen now: during a restart only an armed one (R121). -/
def Dev.canCommit (d : Dev) (t : Tag) : Bool :=
  t.st = .active && t.ph ≠ .waiting && !t.effs.isEmpty && (d.sys.ready || t.armed)

/-- Commit every part of a tag that is due in the block of domain `x` that begins at `b`. -/
def Dev.commitTag (d : Dev) (x b n : Nat) : Dev :=
  (d.tag n).effs.foldl (fun d e =>
    let t := d.tag n
    if !d.canCommit t then d
    else match d.dueAt t x b e with
      | some s => d.commit n e.1 x b s (d.overdue t x b e.2)
      | none => d) d

/-- A position command for an object that an expert write of the same block also names comes after it (R162). -/
def Dev.posLater (d : Dev) (l : List Nat) (n : Nat) : Bool :=
  match (d.tag n).cmd with
  | some (.objPosition o ..) => l.any (fun k => match (d.tag k).cmd with
    | some (.ctxWrite _ es) => es.any (fun e => e.ctx / 48 = o)
    | _ => false)
  | _ => false

/-- Sample at which a tag's first part that is due in a block of domain `x` takes effect. -/
def Dev.dueSample (d : Dev) (x b n : Nat) : Option Nat :=
  ((d.tag n).effs.filterMap (fun e => d.dueAt (d.tag n) x b e)).head?

/-- Tags with a part that is due in a block of domain `x`, by the sample of its effect, in acceptance order at one sample
(R118); of two that meet in a block DEC_SWAP comes before DEC_FIR, and an expert write before a position (R162). -/
def Dev.dueTags (d : Dev) (x b : Nat) : List Nat :=
  let l := (d.tagsInOrder (fun t => d.canCommit t)).filterMap (fun n => (d.dueSample x b n).map (fun s => (s, n)))
  let l := (sortBy (fun (e : Nat × Nat) => e.1) l).map (·.2)
  let fir := fun (n : Nat) => match (d.tag n).cmd with | some (.decFir ..) => true | _ => false
  let late := fun (n : Nat) => d.posLater l n || fir n
  l.filter (fun n => !late n) ++ l.filter late

/-- Every SCENE_CONFIG that is due in the block commits (R202). -/
def Dev.commitScene (d : Dev) (x b : Nat) : Dev :=
  d.forEach ((d.dueTags x b).filter (fun n => match (d.tag n).cmd with | some (.sceneConfig ..) => true | _ => false))
    (fun n d => d.commitTag x b n)

/-- Every command that is due in a block of domain `x` commits. -/
def Dev.commitDue (d : Dev) (x b : Nat) : Dev := d.forEach (d.dueTags x b) (fun n d => d.commitTag x b n)

/-- A command that acts now has its effect domain by domain; the other commands of moments A and D, and ACOUSTIC, whose
outputs follow one order (R150), act once, on everything that they name. -/
def Cmd.split (c : Cmd) : Bool :=
  match c with
  | .chEnable .. | .chZcto .. | .decFir .. => true
  | .acoustic .. => false
  | _ => Cmd.mom c ≠ .a && Cmd.mom c ≠ .dis

/-- A disable that begins at acceptance (R123); a pilot stops at its block boundary (R298). -/
def Cmd.stopsNow (c : Cmd) : Bool :=
  match c with
  | .pilot .. => false
  | _ => !(Cmd.disables c).isEmpty

/-- Give the command its effective samples; what lies in a DISABLED domain is applied at once (R118, R418). -/
def Dev.placeCmd (d : Dev) (n : Nat) (h : Hdr) (c : Cmd) : Dev :=
  let rs := d.domsOf c
  let m := Cmd.mom c
  let now : Bool := m = .dis || (!h.atLt && (m = .a || Cmd.stopsNow c))
  let off := fun (r : Nat) => !h.atLt && (d.dom r).st = .disabled
  if now || rs.all off then
    d.actNow n c (if Cmd.split c then rs else rs.take 1)
  else
    let effs := (rs.filter (fun r => !off r)).map (fun r => (r, d.effOf h r))
    let late := effs.any (fun e => e.2.2)
    let d := d.updTag n (fun t => { t with effs := effs.map (fun e => (e.1, e.2.1)), late := late, ph := .sched })
    d.forEach (rs.filter off) (fun r d => d.effect n c r 0 0)

/-- Step 1 of R123: what is aimed at the instances of a disable is cancelled and counted. -/
def Dev.sweepFor (d : Dev) (n : Nat) (c : Cmd) : Dev :=
  match c with
  | .ringDestroy _ | .tbEnable .. => d
  | _ =>
    let is := Cmd.disables c
    if is.isEmpty then d
    else
      let k := d.cancelTags n (fun t => t.aims is)
      (k.1.testSweep).countCancel n k.2

/-- An accepted command starts: authorisation, checks, and its place in time (R116, R118, R155). -/
def Dev.begin (d : Dev) (n : Nat) : Dev :=
  let t := d.tag n
  match t.hdr, t.cmd with
  | some h, some c =>
    let a := d.authorise c t.rsvd
    if !a.2 then a.1.fail n NOT_PERMITTED
    else match a.1.refuse n h c with
      | some st => a.1.fail n st
      | none =>
        match a.1.swept n c with
        | some k => (a.1.fail n CANCELLED).countCancel k 1
        | none =>
          let d := a.1.sweepFor n c
          let d := d.updTag n (fun t => { t with ph := .sched })
          (d.acceptTest n c).placeCmd n h c
  | _, _ => d

/-- An ORDERED command waits while one accepted earlier from the same ring or channel is not DONE (R118). -/
def Dev.blocked (d : Dev) (n : Nat) : Bool :=
  let t := d.tag n
  match t.hdr with
  | some h => h.ordered && d.tags.any (fun e => e.1 ≠ n && e.2.st = .active && decide (e.2.order < t.order)
      && (match e.2.hdr with | some g => g.via = h.via | none => false))
  | none => false

/-- Start the ORDERED commands that wait for nothing more, oldest first. -/
def Dev.orderedGo (d : Dev) : Dev :=
  if !d.sys.ready then d
  else d.forEach (d.tagsInOrder (fun t => t.st = .active && t.ph = .waiting && t.cmd.isSome)) (fun n d =>
    if (d.tag n).st = .active && (d.tag n).ph = .waiting && !d.blocked n then d.begin n else d)

/-! ### Acceptance (R111–R116) -/

/-- Steps 1 to 4 of R116: opcode, sender, lengths with R111, pointers. -/
def Dev.early (d : Dev) (h : Hdr) (op : Nat) : Option Nat :=
  match rowOf op with
  | none => some BAD_OPCODE
  | some r =>
    let sender := d.senderOf h.via
    let inl := Via.inline h.via
    let alone : Bool := op = 0x0100 || op = 0x0900 || (sender = 3 && (op = 0x0804 || op = 0x0805 || op = 0x0806))
    let badOut : Bool := (h.outlen ≠ 0 && (r.out = 0 || decide (h.outlen < r.out))) || (op = 0x0101 && decide (h.outlen < r.out))
    let badLen : Bool := if r.unit = 0 then h.plen ≠ r.fixed
      else decide (h.plen < (countAt op).1 + (countAt op).2) || decide (r.fixed + r.unit * r.maxN < h.plen)
    firstFail [(!bit r.senders (sender - 2) || (d.sys.recovery && !alone), NOT_PERMITTED),
      (badOut || badLen || (inl && (h.payload ≠ 0 || decide (h.len < 64 + h.plen))) || (Via.side h.via && h.outlen ≠ 0),
        BAD_LENGTH),
      ((h.plen = 0 && h.payload ≠ 0) || (h.outlen = 0 && h.out ≠ 0) || decide (2 ^ 38 ≤ h.payload) || h.payload % 8 ≠ 0
        || decide (2 ^ 38 ≤ h.out) || h.out % 64 ≠ 0, BAD_POINTER)]

/-- Step 5 of R116 for a payload that carries a count (R134). -/
def countOk (op plen n : Nat) : Bool :=
  match rowOf op with
  | some r => r.unit = 0 || plen = r.fixed + r.unit * n
  | none => false

/-- A command whose payload is known starts, or waits where it is ORDERED. -/
def Dev.withCmd (d : Dev) (n : Nat) (c : Cmd) (rsvd : Nat) : Dev :=
  let d := d.updTag n (fun t => { t with cmd := some c, rsvd := rsvd, hdr := t.hdr.map (fun h => { h with rsvd := h.rsvd + rsvd }) })
  if d.blocked n then d else d.begin n

/-- Entries of a CMD ring that is being destroyed are cancelled and counted (R83 step 5). -/
def Dev.draining (d : Dev) (v : Via) : Option Nat :=
  match v with
  | .ring k => if (d.ring k).st = .draining then some k else none
  | _ => none

/-- Steps 1 to 4 of R116 for a descriptor that holds its tag; `go` continues with the payload. -/
def Dev.checkEarly (d : Dev) (h : Hdr) (op : Nat) (go : Dev → Dev) : Dev :=
  match d.draining h.via with
  | some k => (d.fail h.tag CANCELLED).updRing k (fun r => { r with drop := satInc (2 ^ 32 - 1) r.drop })
  | none =>
    match d.early h op with
    | some st => d.fail h.tag st
    | none => go d

/-- Tag check (R115), then steps 1 to 4. -/
def Dev.accept (d : Dev) (h : Hdr) (op : Nat) (go : Dev → Dev) : Dev :=
  let x := d.tagCheck h op
  if x.2 then x.1.checkEarly h op go else x.1

/-- A mailbox command that holds its tag and has not been checked yet. -/
def Dev.unread (d : Dev) (h : Hdr) : Bool :=
  let t := d.tag h.tag
  t.st = .active && t.cmd.isNone && t.ph = .waiting && t.hdr = some h

/-- A descriptor can come this way: from a CMD ring that is RUNNING or DRAINING and not fenced, through a mailbox channel,
or through the sideband port. -/
def Dev.arrives (d : Dev) (v : Via) : Bool :=
  match v with
  | .ring k => decide (k < 4096) && (d.ring k).type = 7 && ((d.ring k).st = .running || (d.ring k).st = .draining)
      && !d.ringFenced k
  | .mbx ch => decide (ch < 64)
  | .sideband => true

/-- One of the 74 commands arrives with its payload: acceptance, checks and effect. Without a ready processor it waits
where it is (R16, R86). -/
def Dev.command (d : Dev) (h : Hdr) (c : Cmd) : Dev :=
  if !d.sys.ready || !d.arrives h.via then d
  else
    (d.accept h (Cmd.op c) (fun d =>
      if countOk (Cmd.op c) h.plen (Cmd.count c) then d.withCmd h.tag c 0 else d.fail h.tag BAD_LENGTH)).orderedGo

/-- The meaning of each of the 74 command rows. -/
def State.command (h : Hdr) (c : Cmd) (s : State) : Host.Outcome State Fault Refusal := .next (s.onLive (fun d => d.command h c))

/-- A payload has been read, or its read has failed (R56, R63, R116 step 4). -/
def Dev.payload (d : Dev) (n : Nat) (r : ReadRes) : Dev :=
  let t := d.tag n
  match t.hdr with
  | none => d
  | some h =>
    match r with
    | .data x =>
      let b := bytesOf (x.take h.plen)
      let p := countAt t.opcode
      if !countOk t.opcode h.plen (fld b p.1 p.2) then d.fail n BAD_LENGTH
      else match cmdOf t.opcode b with
        | some (c, rs) => d.withCmd n c rs
        | none => d.fail n BAD_OPCODE
    | .cplError _ | .poisoned _ | .timeout => (d.readRecord (0x1000 + n) h.payload h.plen r).fail n TIMEOUT
    | .stallTimeout => d.fail n TIMEOUT
    | .aborted | .fenced => d.fail n BAD_POINTER
    | .tableFault es =>
      let d := d.walked (0x1000 + n) h.payload h.plen false es
      if d.stalled (0x1000 + n) then d else d.issue (0x1000 + n) h.payload h.plen 0

/-- COMMAND_ACCEPT: the oldest fetched descriptor is accepted and checked (R115, R116); `r` is how the read of its payload
ends, of which a mailbox command or one without payload makes no use. -/
def Dev.acceptNext (d : Dev) (r : ReadRes) : Dev :=
  match d.fetched with
  | [] => d
  | raw :: rest =>
    let b := bytesOf raw.bytes
    let h := hdrOf raw.via raw.len raw.reply b
    let d := { d with fetched := rest }
    let go := fun (d : Dev) =>
      if Via.inline raw.via || h.plen = 0 then d.payload h.tag (.data ((raw.bytes.drop 64).take h.plen))
      else if d.streamFenced (0x1000 + h.tag) then d.fail h.tag BAD_POINTER
      else
        let a := d.sendRead (0x1000 + h.tag) h.payload h.plen
        if a.2 then a.1.payload h.tag r else a.1
    (match raw.tag with
     | none => d.accept h (fld b 0 2) go
     | some _ => if d.unread h then d.checkEarly h (fld b 0 2) go else d).orderedGo

/-- COMMAND_ACCEPT (R116). -/
def execCommandAccept (r : ReadRes) (s : State) : Host.Outcome State Fault Refusal :=
  .next (s.onLive (fun d => if d.sys.ready then d.acceptNext r else d))

/-- STAMPED_EFFECT: a pending command takes effect where it is due in the next block to be rendered, after the scene's bank
(R118, R119, R201). -/
def Dev.stamped (d : Dev) (n : Nat) : Dev :=
  (d.forEach [0, 1, 2, 3] (fun x d =>
    let b := (d.dom x).nextBlk
    if d.renders x && (d.dueSample x b n).isSome then
      (match (d.tag n).cmd with
       | some (.sceneConfig ..) => d.commitTag x b n
       | _ => (((d.sceneMiss x).commitScene x b).sceneSwitch x).commitTag x b n)
    else d)).orderedGo

/-- STAMPED_EFFECT (R118). -/
def execStampedEffect (n : Nat) (s : State) : Host.Outcome State Fault Refusal :=
  .next (s.onLive (fun d => if n < 512 then d.stamped n else d))

/-! ### Completion records (R78, R91, R114, R115) -/

/-- Bytes of a tag's record. -/
def Tag.record (t : Tag) (n : Nat) : List Nat := cplBytes n t.status t.opcode t.flags t.lt t.result t.epoch
/-- Bytes of a record without a tag: RESULT all ones (R115). -/
def Tless.record (x : Tless) (epoch : Nat) : List Nat :=
  cplBytes x.tag x.status x.opcode (2 * b2n x.asap + 16 * b2n x.heldRec) 0 (2 ^ 64 - 1) epoch

/-- The CPL ring can take a record now, behind none that is held for it. -/
def Dev.cplReady (d : Dev) (k : Nat) : Bool := d.ringOpen k && !d.stalled k && (d.ring k).room && (d.heldOf k).isEmpty

/-- The MSI-X message of a direct reply, on its channel's vector (R91, R98). -/
def Dev.replyMsg (d : Dev) (ch : Option Nat) : Dev :=
  match ch with
  | some ch => d.mbxMsg ch
  | none => d

/-- Mailbox channel of a descriptor. -/
def Tag.channel (t : Tag) : Option Nat :=
  match t.hdr with
  | some h => (match h.via with | .mbx ch => some ch | _ => none)
  | none => none

/-- A finished command's record leaves for its CPL ring or is held, or goes out as a direct reply to the host (R114). -/
def Dev.cplWrite (d : Dev) (n : Nat) : Dev :=
  let t := d.tag n
  match t.ring with
  | some k =>
    let x := if d.cplReady k then d.reach k 32 else (d, false)
    if x.2 then x.1.writeCpl n k
    else (x.1.updTag n (fun t => { t with st := .held, heldRec := true })).updRing k (fun r => { r with cntB := satInc 65535 r.cntB })
  | none =>
    if d.stalled (0x1000 + n) then d
    else
      let fn := fnOf t.sender
      if (d.fn fn).fenced || !d.link.up then d.setTag n Tag.reset
      else match d.rangeFault fn t.reply 32 true with
        | some f => d.stallOn (0x1000 + n) f.1 32 f.2.1 f.2.2 true false
        | none => ((d.dma1 fn t.reply false false false (t.record n)).replyMsg t.channel).setTag n Tag.reset

/-- A record without a tag can leave now. -/
def Dev.tlessReady (d : Dev) (x : Tless) : Bool :=
  match x.ring with
  | some k => d.cplReady k
  | none => true

/-- The oldest record without a tag whose destination can take it leaves; those whose ring cannot wait, marked as held
(R81, R115). -/
def Dev.tlessWrite (d : Dev) : Dev :=
  let l := d.tless.map (fun x => if d.tlessReady x then x else { x with heldRec := true })
  match l.find? d.tlessReady with
  | none => { d with tless := l }
  | some x =>
    let gone : Dev := { d with tless := l.erase x }
    match x.ring with
    | some k =>
      let y := gone.reach k 32
      if y.2 then y.1.putEntry k (x.record d.sys.epoch)
      else { y.1 with tless := l.map (fun z => if z = x then { x with heldRec := true } else z) }
    | none =>
      let d := gone
      if (d.fn x.fn).fenced || !d.link.up then d
      else (d.dma1 x.fn x.reply false false false (x.record d.sys.epoch)).replyMsg x.ch

/-- A direct reply into the sideband window (R91, R102). -/
def State.winReply (s : State) (off : Nat) (bytes : List Nat) : State :=
  { s with win := Memory.writeAll s.win off (bytes.map (BitVec.ofNat 8)) }

/-- COMPLETION_WRITE: the record of a DONE tag, or the oldest one without a tag; during a restart none is written (R16). -/
def execCompletionWrite (sel : CplSel) (s : State) : Host.Outcome State Fault Refusal :=
  .next (
    if !s.dev.live || !s.dev.sys.ready then s
    else match sel with
      | .tag n =>
        let t := s.dev.tag n
        if t.st ≠ .done then s
        else if t.side then (s.winReply t.reply (t.record n)).onDev (fun d => d.setTag n Tag.reset)
        else s.onDev (fun d => d.cplWrite n)
      | .tagless =>
        match s.dev.tless.find? s.dev.tlessReady with
        | none => s.onDev (fun d => d.tlessWrite)
        | some x =>
          if x.side then (s.winReply x.reply (x.record s.dev.sys.epoch)).onDev (fun d => { d with tless := d.tless.erase x })
          else s.onDev (fun d => d.tlessWrite))

end Sys2Proof.Machine
end

