-- ==== Sys2Proof/Machine/Block.lean ====
section
/-! DEFINITION. The block period (R184): what is due at a render start, the render pass, protection and rail arbiter,
what a block boundary completes; the waits and ramps of disables (R123); the ends of DMA reads (R60–R63); and what
happens while no command waits (log entry 1). -/

namespace Sys2Proof.Machine

/-! ### What a block boundary brings -/

/-- A library committed since the last boundary takes effect for the BASIC channels; at EXPERT it is a basic input that is
ignored and counted (R122, R155, R245). -/
def Dev.libReload (d : Dev) : Dev :=
  if !d.nvm.libNext then d
  else
    let d := { d with nvm := { d.nvm with libNext := false } }
    let v := d.nvm.lib.version
    d.forEach (List.range 48) (fun n d =>
      let p := (d.chan n).prot
      if p.profile = 0 || !Config.hasProfile v p.profile then d
      else if p.expert then d.basicIgnored n
      else
        let d := d.updProt n (fun p => p.load v p.profile)
        if (d.chan n).loopExpert then d.basicIgnored n
        else if (d.chan n).firstId then d
        else d.updChan n (fun c => { c with loop := { c.loop with coefNext := some (d.basicCoef n) } }))

/-- Commands that a CANCEL ends at a block boundary complete with CANCELLED; an export with its RESULT so far, and the
tests of the command leave their channels (R138, R162). -/
def Dev.cancelsDue (d : Dev) : Dev :=
  let l := d.tagsInOrder (fun t => t.st = .active && t.cancelAt)
  if l.isEmpty then d
  else
    let d := d.forEach l (fun n d =>
      match d.exports.find? (fun x => x.tag = n) with
      | some x => ({ d with exports := d.exports.filter (fun y => y.tag ≠ n) } : Dev).finish n CANCELLED 0 (x.sent + x.skipped * 2 ^ 32)
      | none => d.fail n CANCELLED)
    d.testSweep

/-- A change of L_pres: 2 ms of ramp under the old value, then the new value from its first sample on (R37). -/
def Dev.lpresStep (d : Dev) (r : Nat) : Dev :=
  let m := d.dom r
  match m.lpresNext with
  | none => d
  | some v =>
    if m.lpMute = 0 then (d.setDom r { m with lpMute := 4 }).retarget 2
    else if 1 < m.lpMute then d.setDom r { m with lpMute := m.lpMute - 1 }
    else
      let d := d.setDom r { m with lpMute := 0, lpres := v, lpresNext := none }
      let b := d.aheadBlk r
      (d.updDom r (fun m => { m with nextBlk := max m.nextBlk b })).retarget 2

/-- What is due at the render start of the next block of domain `r`: SCENE_CONFIG (R202), the scene's bank, then every other
command (R118, R200, R201), then the ramps of channels whose crossing has come (R123). -/
def Dev.renderStart (d : Dev) (r : Nat) : Dev :=
  let b := (d.dom r).nextBlk
  let d := (((d.lpresStep r).sceneMiss r).commitScene r b).sceneSwitch r
  let d := d.commitDue r b
  d.forEach (d.chansOf r) (fun n d => d.stopRamp n)

/-- Tags that waited for the planning of contexts: what is planned no longer holds them, and a carried change makes the
tag's effect that of this block (R119, R185). -/
def Dev.planDone (d : Dev) (ds : List Nat) : Dev :=
  d.forEach (d.tagsInOrder (fun t => t.st = .active && !t.ctxs.isEmpty)) (fun n d =>
    let t := d.tag n
    let keep := t.ctxs.filter (fun c =>
      if ds.contains (d.obj (c / 48)).dom then (d.ctx c).carried && !(d.ctx c).planned
      else (d.ctx c).pend && d.liveCtx (c / 48) (c % 48) && d.renders (d.obj (c / 48)).dom)
    let moved := t.done.map (fun e => (e.1, if ds.contains e.1 then max e.2 (d.dom e.1).nextBlk else e.2))
    (d.setTag n { t with ctxs := keep, done := if keep.isEmpty then moved else t.done }).settle n)

/-! ### The render pass -/

/-- Domain `r` renders its block up to the demand of each channel (R174, R222, R242, R256): the smallest excursion gain of
each channel comes with it. -/
def Dev.renderDom (d : Dev) (r : Nat) : Dev × List (Nat × Rat) :=
  let m := d.dom (d.clk r)
  let S := m.blk
  let b := d.buses r (d.dom r).nextBlk S
  (d.chansOf r).foldl (fun (a : Dev × List (Nat × Rat)) n =>
    let x := a.1.chanBlock n S m.fs (Tab.get (List.replicate S 0) b.2 n)
    (x.1, a.2 ++ [(n, x.2)])) (b.1, [])

/-- The buses of a pair's channels hold the objects of both domains: those of the partner domain have been summed in their
own blocks, which coincide (R31, R163). -/
def Dev.renderAll (d : Dev) (ds : List Nat) : Dev × List (Nat × Rat) :=
  let pairNow : Bool := d.tb.pair && ds.contains 0 && ds.contains 1
  if !pairNow then
    ds.foldl (fun (a : Dev × List (Nat × Rat)) r => let x := a.1.renderDom r; (x.1, a.2 ++ x.2)) (d, [])
  else
    let m := d.dom 0
    let b0 := d.buses 0 (d.dom 0).nextBlk m.blk
    let b1 := b0.1.buses 1 (d.dom 1).nextBlk m.blk
    let zero : List Rat := List.replicate m.blk 0
    let both := fun (n : Nat) => List.zipWith (· + ·) (Tab.get zero b0.2 n) (Tab.get zero b1.2 n)
    let a := (d.chansOf 0 ++ d.chansOf 1).foldl (fun (a : Dev × List (Nat × Rat)) n =>
      let x := a.1.chanBlock n m.blk m.fs (both n)
      (x.1, a.2 ++ [(n, x.2)])) (b1.1, [])
    (ds.filter (fun r => decide (1 < r))).foldl (fun (a : Dev × List (Nat × Rat)) r =>
      let x := a.1.renderDom r; (x.1, a.2 ++ x.2)) a

/-- The last stages of the block of each channel: rail trim, clamp, stimuli (R242, R255, R257, R284); the partner of a
bridged pair mirrors its primary. The drive then waits for the interpolator (R211). -/
def Dev.finishChans (d : Dev) (l : List (Nat × Rat)) : Dev :=
  l.foldl (fun (d : Dev) (e : Nat × Rat) =>
    let n := e.1
    let m := d.dom (d.clk (d.chan n).dom)
    if d.isPartner n then d.protMirror n
    else ((d.protFinish n m.blk m.fs e.2).inject n m.blk m.fs).feedUp n m.blk) d

/-- ISOCHRONOUS rings of a domain publish their index at its block boundary (R73). -/
def Dev.isoPublish (d : Dev) (r : Nat) : Dev :=
  let l := (d.rings.filter (fun p => p.2.iso && (p.2.st = .running || p.2.st = .stalled)
    && (if p.2.type = 6 then d.tb.master else p.2.domain) = r)).map (·.1)
  d.forEach l (fun k d => d.publish k (d.dom r).nextBlk)

/-- Domain `r` has rendered its block: channels and objects whose ramp to silence has ended are off, the counts of carried
contexts stand, and the next block follows (R123, R130). -/
def Dev.blockEnd (d : Dev) (r : Nat) : Dev :=
  let S := (d.dom (d.clk r)).blk
  let d := d.updDom r (fun m => { m with nextBlk := m.nextBlk + S })
  let ended := (d.objsOf r).filter (fun o => (d.obj o).ending)
  let d := d.forEach ended (fun o d => d.objEnd o)
  let d := d.forEach (d.chansOf r) (fun n d => (d.stopEnd n).pilotEnd n)
  let d := d.forEach (d.objsOf r) (fun o d =>
    d.updObj o (fun a => { a with carried := ((d.liveOf o).filter (fun c => (d.ctx c).carried)).length }))
  d.isoPublish r

/-- One round of blocks: render, arbiter, last stages, boundary. -/
def Dev.round (d : Dev) (ds : List Nat) (arb : Bool) : Dev :=
  let x := d.renderAll ds
  let d := if arb then x.1.arbiter else x.1
  d.finishChans x.2 |>.forEach ds (fun r d => d.blockEnd r)

/-- Domains that render a second block in the period: settings planned for it are set up, the others' are held (R184). -/
def Dev.secondRound (d : Dev) (ds twice : List Nat) : Dev :=
  if ds.isEmpty then d
  else
    let d := d.forEach ds (fun r d => d.renderStart r)
    let d := d.forEach twice (fun c d => d.updCtx c (fun x => { x.plan (d.dom (d.obj (c / 48)).dom).nextBlk with carried := false }))
    (d.planDone ds).round ds false

/-- Channels of domains that do not render: their models run on with zero drive, and their credit follows their state (R242, R258; log entry 43). -/
def Dev.modelsOnly (d : Dev) (ds : List Nat) : Dev :=
  d.forEach ((List.range 48).filter (fun n => !ds.contains (d.chan n).dom)) (fun n d =>
    let d := ((d.protModels n).fold n).updSums n Sums.next
    d.updProt n (fun p => { p with credit := d.creditOf n }))

/-- Entries of SRC rings that have come are used before the blocks that need them (R60). -/
def Dev.arrivals (d : Dev) : Dev :=
  d.forEach ((d.rings.filter (fun p => p.2.type = 1)).map (·.1)) (fun k d => d.useArrived k)

/-- A block period of the clock master. `doms` are the domains whose blocks are rendered, by deadline, a domain that runs
fast perhaps twice; `stalls` the render pass's memory stalls; `temps` readings of the pair sensors (R271); `mics` the microphones' bits of the block, oldest first. -/
def Dev.renderBlock (d : Dev) (doms : List Nat) (stalls : Nat) (temps : List (Nat × Int)) (mics : List (Nat × List Bool)) : Dev :=
  let all := doms.filter (fun r => decide (r < 4) && d.renders r)
  let first := all.eraseDups
  let second := first.filter (fun r => decide (1 < (all.filter (· = r)).length))
  let d := (d.readTemps temps).secondEnd.anchorsDue.libReload.cancelsDue.arrivals
  let d := d.forEach first (fun r d => d.renderStart r)
  let first := first.filter (fun r => d.renders r)
  let second := second.filter (fun r => d.renders r)
  let p := d.planPass (first ++ second) (fun r d => d.renderStart r)
  let d := p.1.planDone first
  let cost := d.rend.used + min stalls budgetG
  let d := { d with rend := { d.rend with used := cost, slotsMax := max d.rend.slotsMax cost } }
  let d := d.round first true
  let d := (d.secondRound second p.2).modelsOnly first
  let d := if first.contains d.tb.master then
      let m := d.dom d.tb.master
      d.micBlocks (m.nextBlk - (d.dom (d.clk d.tb.master)).blk) mics
    else d
  let d := if d.sys.ready then d.sumsDone else d
  d.fetchAll.domSettle.dmaEnds.orderedGo

/-- RENDER_BLOCK (R184). -/
def execRenderBlock (doms : List Nat) (stalls : Nat) (temps : List (Nat × Int)) (_sense : Own) (mics : List (Nat × List Bool))
    (s : State) : Host.Outcome State Fault Refusal :=
  .next (s.onLive (fun d => d.renderBlock doms stalls temps mics))

/-- BUDGET_SHORT_REPORT: a second of the render totals ends (R186, R412, R417). -/
def execBudgetShortReport (s : State) : Host.Outcome State Fault Refusal := .next (s.onLive (fun d => d.secondEnd))

/-! ### Waits and ramps of a disable (R123) -/

/-- Channels that carry an object's audio: those of its live contexts that are not parked. -/
def Dev.carriers (d : Dev) (o : Nat) : List Nat := ((d.liveOf o).filter (fun c => !(d.ctx c).parked)).map (· % 48)

/-- Longest zero-crossing timeout of the channels that carry an object, in ms (log entry 42). -/
def Dev.objZcto (d : Dev) (o : Nat) : Nat := ((d.carriers o).map (fun n => (d.chan n).zcto)).foldl max 0

/-- The wait of an object ends. -/
def Dev.objCross (d : Dev) (o : Nat) : Dev := d.updObj o (fun a => { a with wait := none, ending := true })

/-- ZERO_CROSSING: the wait ends, the ramp follows at the next block boundary (R123, R316). -/
def execZeroCrossing (t : Target) (s : State) : Host.Outcome State Fault Refusal :=
  .next (s.onLive (fun d =>
    match t with
    | .chan n => if n < 48 && (d.chan n).stop = .wait then d.updChan n (fun c => { c with stop := .crossed }) else d
    | .obj o => if o < 256 && (d.obj o).wait.any (fun a => decide (a ≤ d.sys.uptime)) then d.objCross o else d
    | .port p k => if p < 4 && k < 64 then d.portCross p k false else d))

/-- Count the zero-crossing timeouts of a wait on some channels, and for a command. -/
def Dev.countZcto (d : Dev) (chs tags : List Nat) : Dev :=
  let d := d.forEach chs (fun n d => d.updChan n (fun c => { c with zctoCnt := satInc (2 ^ 32 - 1) c.zctoCnt }))
  d.forEach tags (fun t d => d.updTag t (fun t => { t with zctos := satAdd 65535 t.zctos chs.length }))

/-- ZERO_CROSSING_TIMEOUT: the wait has lasted its timeout; it is counted (R123, R316). -/
def execZeroCrossingTimeout (t : Target) (s : State) : Host.Outcome State Fault Refusal :=
  .next (s.onLive (fun d =>
    match t with
    | .chan n =>
      let c := d.chan n
      if n < 48 && c.stop = .wait && decide (c.waitAt + 1000 * c.zcto ≤ d.sys.uptime) then
        (d.setChan n { c with stop := .crossed }).countZcto [n] c.stopTags
      else d
    | .obj o =>
      (match (d.obj o).wait with
       | some a =>
         if o < 256 && decide (a + 1000 * d.objZcto o ≤ d.sys.uptime) then
           (d.objCross o).countZcto (d.carriers o) (match (d.obj o).waitTag with | some g => [g] | none => [])
         else d
       | none => d)
    | .port p k => if p < 4 && k < 64 then d.portCross p k true else d))

/-- DISABLE_RAMP_DONE: a ramp to silence has ended: resources are returned and the disable completes (R123). -/
def execDisableRampDone (t : Target) (s : State) : Host.Outcome State Fault Refusal :=
  .next (s.onLive (fun d =>
    match t with
    | .chan n => if n < 48 then d.stopEnd n else d
    | .obj o =>
      let a := d.obj o
      if o < 256 && (a.ending || a.wait.isSome) && !d.renders a.dom then d.objEnd o else d
    | .port p _ => if p < 4 then d.portOff p else d))

/-! ### Ends of DMA reads (R60–R63) -/

/-- The end of a read of the control processor in the internal domain (R56, R63, R155). -/
def Dev.internalRead (d : Dev) (x : Rd) (r : ReadRes) : Dev :=
  match r with
  | .data _ =>
    let d := d.dropRead x.no
    (match d.copying with
     | some n => (d.updTag n (fun t => { t with waits := t.waits - min t.waits x.len })).stageGo
     | none => d)
  | .cplError _ | .poisoned _ | .timeout => (d.readRecord 0x1300 x.iova x.len r).internalFail TIMEOUT
  | .stallTimeout => d.internalFail TIMEOUT
  | .aborted | .fenced => d.internalFail BAD_POINTER
  | .tableFault es => d.walked 0x1300 x.iova x.len false es

/-- The read of a command's payload ends (R63, R116). -/
def Dev.payloadRead (d : Dev) (n : Nat) (x : Rd) (r : ReadRes) : Dev :=
  let t := d.tag n
  let d := d.dropRead x.no
  if t.st = .active && t.cmd.isNone && t.ph = .waiting then (d.payload n r).orderedGo else d

/-- The read under way that a completion or its timeout ends: the same stream, address and length. -/
def Trn.under (t : Trn) (st iova len : Nat) : Option Rd :=
  t.reads.find? (fun x => x.stream = st && x.iova = iova && x.len = len && !x.taken)

/-- The read `x` of its stream ends. -/
def Dev.readEnd (d : Dev) (x : Rd) (r : ReadRes) : Dev :=
  let st := x.stream
  if st < 0x1000 then
    (match r with
     | .tableFault es => d.walked st x.iova x.len false es
     | _ => (((d.sceneMissFor st).readRecord st x.iova x.len r).ringRead st x r).dmaEnds)
  else if st < 0x1200 then d.payloadRead (st - 0x1000) x r
  else if st < 0x1240 then
    (match r with
     | .tableFault es => d.walked st x.iova x.len false es
     | _ => ((d.dropRead x.no).readRecord st x.iova x.len r).noticeRead (st - 0x1200) r)
  else d.internalRead x r

/-- The completion timeout of a function in µs (R62). -/
def Fn.ctoUs (f : Fn) : Nat := if f.cto = 5 then 30000 else if f.cto = 6 then 120000 else 40000

/-- The completion timeout of the read has passed (R62). -/
def Dev.timedOut (d : Dev) (x : Rd) : Bool := decide (x.since + (d.fn (d.streamFn x.stream)).ctoUs ≤ d.sys.uptime)

/-- Reads that are due leave: those of the stream's ring, where it is one. -/
def Dev.fetchFor (d : Dev) (st : Nat) : Dev := if st < 0x1000 then d.fetch st else d

/-- READ_COMPLETION: the data of a read comes, or it ends with an error (R60, R63); a completion for no read under way is
discarded, with AER Unexpected Completion, unless the fence drops the stream's traffic (R58, R63). -/
def execReadCompletion (st iova len : Nat) (_place : Own) (r : ReadRes) (s : State) : Host.Outcome State Fault Refusal :=
  .next (s.onLive (fun d =>
    if !d.link.up || 0x1300 < st then d
    else match d.trn.under st iova len with
      | none => if d.streamFenced st then d else d.aerSet (d.streamFn st) 16
      | some x => if r = .timeout && !d.timedOut x then d else (d.readEnd x r).fetchFor st))

/-- COMPLETION_TIMEOUT: a read reaches its completion timeout and ends (R62, R63). The reads of a CMD ring's entries and
descriptors end within CMD_ENTRY_FETCH, which repeats a failed one. -/
def execCompletionTimeout (st iova len : Nat) (s : State) : Host.Outcome State Fault Refusal :=
  .next (s.onLive (fun d =>
    match d.trn.under st iova len with
    | none => d
    | some x => if d.link.up && d.timedOut x then (d.readEnd x .timeout).fetchFor st else d))

/-! ### While no command waits (log entry 1) -/

/-- One microsecond passes: clocks, rates that drift in FREERUN (R29), tests under way, exports, PLLs, the hold of a lost
reference, ORDERED commands. -/
def Dev.idle (d : Dev) : Dev :=
  let d := d.tick.secondEnd.anchorsDue.testsWatch.flyEnd.bootStep
  let d := if d.doms.any (fun e => e.2.st = .freerun) then d.rateRange else d
  let d := d.exportsStep.plls.refHoldDue.fetchAll
  d.ltrSync.domSettle.dmaEnds.orderedGo

/-- The state a microsecond later; nothing moves in power-on reset, and only the uptime under PERST_N or a freeze. -/
def State.idle (s : State) : State :=
  if s.dev.live then s.onDev Dev.idle
  else if s.dev.sys.por || s.dev.fz.frozen then s
  else s.onDev (fun d => ({ d with sys := { d.sys with uptime := (d.sys.uptime + 1) % 2 ^ 48 } } : Dev).plls)

end Sys2Proof.Machine
end

