-- ==== Sys2Proof/Machine/CommandRows.lean ====
section
/-! DEFINITION. The meanings of the 74 Ramcen command rows (R136–R158), each over the shared operation of R110–R119:
acceptance, checks, effect at its moment, completion. -/

namespace Sys2Proof.Machine

/-- GET_INFO (R136). -/
def execGetInfo (h : Hdr) (s : State) : Host.Outcome State Fault Refusal := s.command h .getInfo

/-- GET_SUMMARY (R125). -/
def execGetSummary (h : Hdr) (s : State) : Host.Outcome State Fault Refusal := s.command h .getSummary

/-- CANCEL (R138). -/
def execCancel (h : Hdr) (target : Nat) (s : State) : Host.Outcome State Fault Refusal := s.command h (.cancel target)

/-- TB_RATE (R40). -/
def execTbRate (h : Hdr) (dom rate drate lpf : Nat) (s : State) : Host.Outcome State Fault Refusal :=
  s.command h (.tbRate dom rate drate lpf)

/-- TB_ENABLE (R418). -/
def execTbEnable (h : Hdr) (dom en : Nat) (s : State) : Host.Outcome State Fault Refusal :=
  s.command h (.tbEnable dom en)

/-- TB_TIMING (R40). -/
def execTbTiming (h : Hdr) (dom mask cable lpres hold : Nat) (s : State) : Host.Outcome State Fault Refusal :=
  s.command h (.tbTiming dom mask cable lpres hold)

/-- TB_DPLL (R40). -/
def execTbDpll (h : Hdr) (dom bw : Nat) (s : State) : Host.Outcome State Fault Refusal := s.command h (.tbDpll dom bw)

/-- TB_CLOCKMASTER (R29). -/
def execTbClockmaster (h : Hdr) (dom : Nat) (s : State) : Host.Outcome State Fault Refusal :=
  s.command h (.tbClockmaster dom)

/-- TB_PAIR (R31). -/
def execTbPair (h : Hdr) (doma domb en : Nat) (offset : Int) (s : State) : Host.Outcome State Fault Refusal :=
  s.command h (.tbPair doma domb en offset)

/-- MBX_CONFIG (R98). -/
def execMbxConfig (h : Hdr) (ch set cpl vec tmo upbuf : Nat) (s : State) : Host.Outcome State Fault Refusal :=
  s.command h (.mbxConfig ch set cpl vec tmo upbuf)

/-- RESTART (R136). -/
def execRestart (h : Hdr) (mode : Nat) (s : State) : Host.Outcome State Fault Refusal := s.command h (.restart mode)

/-- POWER_STATE (R378). -/
def execPowerState (h : Hdr) (state : Nat) (s : State) : Host.Outcome State Fault Refusal :=
  s.command h (.powerState state)

/-- TW_CONFIG (R140). -/
def execTwConfig (h : Hdr) (addr2 mmode mask stretch : Nat) (s : State) : Host.Outcome State Fault Refusal :=
  s.command h (.twConfig addr2 mmode mask stretch)

/-- CH_ENABLE (R141). -/
def execChEnable (h : Hdr) (chmask en dom : Nat) (s : State) : Host.Outcome State Fault Refusal :=
  s.command h (.chEnable chmask en dom)

/-- CH_VOLUME (R141). -/
def execChVolume (h : Hdr) (chmask : Nat) (vol : Int) (ramp : Nat) (s : State) : Host.Outcome State Fault Refusal :=
  s.command h (.chVolume chmask vol ramp)

/-- CH_MUTE (R222). -/
def execChMute (h : Hdr) (chmask mute ramp : Nat) (s : State) : Host.Outcome State Fault Refusal :=
  s.command h (.chMute chmask mute ramp)

/-- CH_BRIDGE (R224). -/
def execChBridge (h : Hdr) (pairs : Nat) (s : State) : Host.Outcome State Fault Refusal :=
  s.command h (.chBridge pairs)

/-- CH_LOOP (R215). -/
def execChLoop (h : Hdr) (chmask : Nat) (coef : Coef) (s : State) : Host.Outcome State Fault Refusal :=
  s.command h (.chLoop chmask coef)

/-- CH_CARRIER (R141). -/
def execChCarrier (h : Hdr) (chmask period pmode phase : Nat) (s : State) : Host.Outcome State Fault Refusal :=
  s.command h (.chCarrier chmask period pmode phase)

/-- CH_ZCTO (R141). -/
def execChZcto (h : Hdr) (chmask zcto : Nat) (s : State) : Host.Outcome State Fault Refusal :=
  s.command h (.chZcto chmask zcto)

/-- CH_STATUS (R141). -/
def execChStatus (h : Hdr) (ch : Nat) (s : State) : Host.Outcome State Fault Refusal := s.command h (.chStatus ch)

/-- OBJ_SOURCE (R144). -/
def execObjSource (h : Hdr) (obj src dom bind prio : Nat) (s : State) : Host.Outcome State Fault Refusal :=
  s.command h (.objSource obj src dom bind prio)

/-- OBJ_POSITION (R176). -/
def execObjPosition (h : Hdr) (obj : Nat) (pos : Point) (gain : Int) (s : State) : Host.Outcome State Fault Refusal :=
  s.command h (.objPosition obj pos gain)

/-- OBJ_BULKDELAY (R166). -/
def execObjBulkdelay (h : Hdr) (obj delay ldly : Nat) (s : State) : Host.Outcome State Fault Refusal :=
  s.command h (.objBulkdelay obj delay ldly)

/-- CTX_WRITE (R145). -/
def execCtxWrite (h : Hdr) (n : Nat) (entries : List CtxEntry) (s : State) : Host.Outcome State Fault Refusal :=
  s.command h (.ctxWrite n entries)

/-- SHAPE_LOAD (R171). -/
def execShapeLoad (h : Hdr) (first n : Nat) (taps : List Int) (s : State) : Host.Outcome State Fault Refusal :=
  s.command h (.shapeLoad first n taps)

/-- GEOMETRY (R176). -/
def execGeometry (h : Hdr) (first n : Nat) (pts : List Point) (s : State) : Host.Outcome State Fault Refusal :=
  s.command h (.geometry first n pts)

/-- PAN_LAW (R177). -/
def execPanLaw (h : Hdr) (law param : Nat) (s : State) : Host.Outcome State Fault Refusal :=
  s.command h (.panLaw law param)

/-- SCENE_CONFIG (R189). -/
def execSceneConfig (h : Hdr) (dom en p ring : Nat) (s : State) : Host.Outcome State Fault Refusal :=
  s.command h (.sceneConfig dom en p ring)

/-- OBJ_BASIC (R179). -/
def execObjBasic (h : Hdr) (obj : Nat) (s : State) : Host.Outcome State Fault Refusal := s.command h (.objBasic obj)

/-- PORT_PRESET (R147). -/
def execPortPreset (h : Hdr) (port preset role dom : Nat) (s : State) : Host.Outcome State Fault Refusal :=
  s.command h (.portPreset port preset role dom)

/-- PORT_FORMAT (R302). -/
def execPortFormat (h : Hdr) (port slots width offset fsw pol role dom : Nat) (s : State) :
    Host.Outcome State Fault Refusal := s.command h (.portFormat port slots width offset fsw pol role dom)

/-- PORT_ENABLE (R305). -/
def execPortEnable (h : Hdr) (port en rxring txring : Nat) (s : State) : Host.Outcome State Fault Refusal :=
  s.command h (.portEnable port en rxring txring)

/-- PORT_MASK (R315). -/
def execPortMask (h : Hdr) (port rx tx : Nat) (s : State) : Host.Outcome State Fault Refusal :=
  s.command h (.portMask port rx tx)

/-- PORT_SLIP (R308). -/
def execPortSlip (h : Hdr) (port group win zcto : Nat) (s : State) : Host.Outcome State Fault Refusal :=
  s.command h (.portSlip port group win zcto)

/-- PORT_ROUTE (R148). -/
def execPortRoute (h : Hdr) (port : Nat) (src : List Nat) (s : State) : Host.Outcome State Fault Refusal :=
  s.command h (.portRoute port src)

/-- PDM_CONFIG (R320). -/
def execPdmConfig (h : Hdr) (clk micmask : Nat) (gmask : List Nat) (s : State) : Host.Outcome State Fault Refusal :=
  s.command h (.pdmConfig clk micmask gmask)

/-- PROT_PROFILE (R245). -/
def execProtProfile (h : Hdr) (chmask profile : Nat) (s : State) : Host.Outcome State Fault Refusal :=
  s.command h (.protProfile chmask profile)

/-- PROT_THERMAL (R247). -/
def execProtThermal (h : Hdr) (chmask : Nat) (c : ConstSet) (s : State) : Host.Outcome State Fault Refusal :=
  s.command h (.protThermal chmask c)

/-- PROT_TS (R251). -/
def execProtTs (h : Hdr) (chmask : Nat) (t : TsSet) (s : State) : Host.Outcome State Fault Refusal :=
  s.command h (.protTs chmask t)

/-- PROT_LIMITS (R243). -/
def execProtLimits (h : Hdr) (chmask vmax tmax xmax plong : Nat) (s : State) : Host.Outcome State Fault Refusal :=
  s.command h (.protLimits chmask vmax tmax xmax plong)

/-- RAIL_BUDGET (R257). -/
def execRailBudget (h : Hdr) (budget : Nat) (s : State) : Host.Outcome State Fault Refusal :=
  s.command h (.railBudget budget)

/-- DIAG_RUN (R151). -/
def execDiagRun (h : Hdr) (chmask test when_ : Nat) (s : State) : Host.Outcome State Fault Refusal :=
  s.command h (.diagRun chmask test when_)

/-- DIAG_TONES (R150). -/
def execDiagTones (h : Hdr) (chmask when_ flo fhi : Nat) (level : Int) (dur : Nat) (s : State) :
    Host.Outcome State Fault Refusal := s.command h (.diagTones chmask when_ flo fhi level dur)

/-- PILOT (R298). -/
def execPilot (h : Hdr) (chmask en freq : Nat) (level : Int) (s : State) : Host.Outcome State Fault Refusal :=
  s.command h (.pilot chmask en freq level)

/-- ACOUSTIC (R300). -/
def execAcoustic (h : Hdr) (chmask micmask stim when_ : Nat) (level : Int) (s : State) :
    Host.Outcome State Fault Refusal := s.command h (.acoustic chmask micmask stim when_ level)

/-- QUIET_WINDOWS (R296). -/
def execQuietWindows (h : Hdr) (n : Nat) (wins : List QWin) (s : State) : Host.Outcome State Fault Refusal :=
  s.command h (.quietWindows n wins)

/-- MEAS_BIND (R150). -/
def execMeasBind (h : Hdr) (ring : Nat) (s : State) : Host.Outcome State Fault Refusal := s.command h (.measBind ring)

/-- RING_SETUP (R82). -/
def execRingSetup (h : Hdr) (ring : Nat) (desc : RingDesc) (s : State) : Host.Outcome State Fault Refusal :=
  s.command h (.ringSetup ring desc)

/-- RING_DESTROY (R83). -/
def execRingDestroy (h : Hdr) (ring : Nat) (s : State) : Host.Outcome State Fault Refusal :=
  s.command h (.ringDestroy ring)

/-- ISO_RESERVE (R49). -/
def execIsoReserve (h : Hdr) (rd wr : Nat) (s : State) : Host.Outcome State Fault Refusal :=
  s.command h (.isoReserve rd wr)

/-- ENV_SET (R154). -/
def execEnvSet (h : Hdr) (chmask vmax tmax xmax plong rail lock : Nat) (s : State) :
    Host.Outcome State Fault Refusal := s.command h (.envSet chmask vmax tmax xmax plong rail lock)

/-- AUTH_CHALLENGE (R153). -/
def execAuthChallenge (h : Hdr) (s : State) : Host.Outcome State Fault Refusal := s.command h .authChallenge

/-- ENV_UNLOCK (R155). -/
def execEnvUnlock (h : Hdr) (chmask sig : Nat) (s : State) : Host.Outcome State Fault Refusal :=
  s.command h (.envUnlock chmask sig)

/-- OWNER_KEY (R153). -/
def execOwnerKey (h : Hdr) (key sig : Nat) (s : State) : Host.Outcome State Fault Refusal :=
  s.command h (.ownerKey key sig)

/-- STAGE (R155). -/
def execStage (h : Hdr) (target offset len src : Nat) (s : State) : Host.Outcome State Fault Refusal :=
  s.command h (.stage target offset len src)

/-- STAGE_COMMIT (R153). -/
def execStageCommit (h : Hdr) (target : Nat) (s : State) : Host.Outcome State Fault Refusal :=
  s.command h (.stageCommit target)

/-- ACTIVATE (R347). -/
def execActivate (h : Hdr) (image now : Nat) (s : State) : Host.Outcome State Fault Refusal :=
  s.command h (.activate image now)

/-- MORDANT_CLEAR (R355). -/
def execMordantClear (h : Hdr) (area sig : Nat) (s : State) : Host.Outcome State Fault Refusal :=
  s.command h (.mordantClear area sig)

/-- MDT_INFO (R156). -/
def execMdtInfo (h : Hdr) (s : State) : Host.Outcome State Fault Refusal := s.command h .mdtInfo

/-- MDT_EXPORT (R356). -/
def execMdtExport (h : Hdr) (area first count ring : Nat) (s : State) : Host.Outcome State Fault Refusal :=
  s.command h (.mdtExport area first count ring)

/-- MDT_NOTE (R156). -/
def execMdtNote (h : Hdr) (code : Nat) (data : List Byte) (s : State) : Host.Outcome State Fault Refusal :=
  s.command h (.mdtNote code data)

/-- DEC_PRESET (R232). -/
def execDecPreset (h : Hdr) (mask preset : Nat) (s : State) : Host.Outcome State Fault Refusal :=
  s.command h (.decPreset mask preset)

/-- DEC_FIR (R233). -/
def execDecFir (h : Hdr) (mask bank ntaps : Nat) (taps : List Int) (s : State) : Host.Outcome State Fault Refusal :=
  s.command h (.decFir mask bank ntaps taps)

/-- DEC_SWAP (R233). -/
def execDecSwap (h : Hdr) (mask : Nat) (s : State) : Host.Outcome State Fault Refusal := s.command h (.decSwap mask)

/-- DEC_DCBLOCK (R234). -/
def execDecDcblock (h : Hdr) (mask corner freeze : Nat) (s : State) : Host.Outcome State Fault Refusal :=
  s.command h (.decDcblock mask corner freeze)

/-- DSYNC (R39). -/
def execDsync (h : Hdr) (s : State) : Host.Outcome State Fault Refusal := s.command h .dsync

/-- POLICY (R270). -/
def execPolicy (h : Hdr) (dies oc th : Nat) (s : State) : Host.Outcome State Fault Refusal :=
  s.command h (.policy dies oc th)

/-- OC_LIMITS (R264). -/
def execOcLimits (h : Hdr) (chmask ilim ncons mtrips win tretry rlim : Nat) (s : State) :
    Host.Outcome State Fault Refusal := s.command h (.ocLimits chmask ilim ncons mtrips win tretry rlim)

/-- TH_LIMITS (R271). -/
def execThLimits (h : Hdr) (dies tfold : Nat) (s : State) : Host.Outcome State Fault Refusal :=
  s.command h (.thLimits dies tfold)

/-- DC_LIMITS (R274). -/
def execDcLimits (h : Hdr) (chmask vdc tdc edgewin : Nat) (s : State) : Host.Outcome State Fault Refusal :=
  s.command h (.dcLimits chmask vdc tdc edgewin)

/-- FAULT_CLEAR (R275). -/
def execFaultClear (h : Hdr) (chmask : Nat) (s : State) : Host.Outcome State Fault Refusal :=
  s.command h (.faultClear chmask)

/-- EMG_MUTE_CMD (R280). -/
def execEmgMuteCmd (h : Hdr) (set hard ramp : Nat) (s : State) : Host.Outcome State Fault Refusal :=
  s.command h (.emgMuteCmd set hard ramp)

/-- FAULT_COUNTERS (R158). -/
def execFaultCounters (h : Hdr) (chmask : Nat) (s : State) : Host.Outcome State Fault Refusal :=
  s.command h (.faultCounters chmask)

end Sys2Proof.Machine
end

