-- ==== Sys2Proof/Machine/Dispatch.lean ====
section
/-! DEFINITION. The meaning of every command: one arm per row of spec/opcode_table.json. -/

namespace Sys2Proof.Machine

def exec (i : Instr) (s : State) : Host.Outcome State Fault Refusal :=
  match i with
  | .getInfo h => Sys2Proof.Machine.execGetInfo h s
  | .getSummary h => Sys2Proof.Machine.execGetSummary h s
  | .cancel h target => Sys2Proof.Machine.execCancel h target s
  | .tbRate h dom rate drate lpf => Sys2Proof.Machine.execTbRate h dom rate drate lpf s
  | .tbEnable h dom en => Sys2Proof.Machine.execTbEnable h dom en s
  | .tbTiming h dom mask cable lpres hold => Sys2Proof.Machine.execTbTiming h dom mask cable lpres hold s
  | .tbDpll h dom bw => Sys2Proof.Machine.execTbDpll h dom bw s
  | .tbClockmaster h dom => Sys2Proof.Machine.execTbClockmaster h dom s
  | .tbPair h doma domb en offset => Sys2Proof.Machine.execTbPair h doma domb en offset s
  | .mbxConfig h ch set cpl vec tmo upbuf => Sys2Proof.Machine.execMbxConfig h ch set cpl vec tmo upbuf s
  | .restart h mode => Sys2Proof.Machine.execRestart h mode s
  | .powerState h state => Sys2Proof.Machine.execPowerState h state s
  | .twConfig h addr2 mmode mask stretch => Sys2Proof.Machine.execTwConfig h addr2 mmode mask stretch s
  | .chEnable h chmask en dom => Sys2Proof.Machine.execChEnable h chmask en dom s
  | .chVolume h chmask vol ramp => Sys2Proof.Machine.execChVolume h chmask vol ramp s
  | .chMute h chmask mute ramp => Sys2Proof.Machine.execChMute h chmask mute ramp s
  | .chBridge h pairs => Sys2Proof.Machine.execChBridge h pairs s
  | .chLoop h chmask coef => Sys2Proof.Machine.execChLoop h chmask coef s
  | .chCarrier h chmask period pmode phase => Sys2Proof.Machine.execChCarrier h chmask period pmode phase s
  | .chZcto h chmask zcto => Sys2Proof.Machine.execChZcto h chmask zcto s
  | .chStatus h ch => Sys2Proof.Machine.execChStatus h ch s
  | .objSource h obj src dom bind prio => Sys2Proof.Machine.execObjSource h obj src dom bind prio s
  | .objPosition h obj pos gain => Sys2Proof.Machine.execObjPosition h obj pos gain s
  | .objBulkdelay h obj delay ldly => Sys2Proof.Machine.execObjBulkdelay h obj delay ldly s
  | .ctxWrite h n entries => Sys2Proof.Machine.execCtxWrite h n entries s
  | .shapeLoad h first n taps => Sys2Proof.Machine.execShapeLoad h first n taps s
  | .geometry h first n pts => Sys2Proof.Machine.execGeometry h first n pts s
  | .panLaw h law param => Sys2Proof.Machine.execPanLaw h law param s
  | .sceneConfig h dom en p ring => Sys2Proof.Machine.execSceneConfig h dom en p ring s
  | .objBasic h obj => Sys2Proof.Machine.execObjBasic h obj s
  | .portPreset h port preset role dom => Sys2Proof.Machine.execPortPreset h port preset role dom s
  | .portFormat h port slots width offset fsw pol role dom => Sys2Proof.Machine.execPortFormat h port slots width offset fsw pol role dom s
  | .portEnable h port en rxring txring => Sys2Proof.Machine.execPortEnable h port en rxring txring s
  | .portMask h port rx tx => Sys2Proof.Machine.execPortMask h port rx tx s
  | .portSlip h port group win zcto => Sys2Proof.Machine.execPortSlip h port group win zcto s
  | .portRoute h port src => Sys2Proof.Machine.execPortRoute h port src s
  | .pdmConfig h clk micmask gmask => Sys2Proof.Machine.execPdmConfig h clk micmask gmask s
  | .protProfile h chmask profile => Sys2Proof.Machine.execProtProfile h chmask profile s
  | .protThermal h chmask c => Sys2Proof.Machine.execProtThermal h chmask c s
  | .protTs h chmask t => Sys2Proof.Machine.execProtTs h chmask t s
  | .protLimits h chmask vmax tmax xmax plong => Sys2Proof.Machine.execProtLimits h chmask vmax tmax xmax plong s
  | .railBudget h budget => Sys2Proof.Machine.execRailBudget h budget s
  | .diagRun h chmask test when_ => Sys2Proof.Machine.execDiagRun h chmask test when_ s
  | .diagTones h chmask when_ flo fhi level dur => Sys2Proof.Machine.execDiagTones h chmask when_ flo fhi level dur s
  | .pilot h chmask en freq level => Sys2Proof.Machine.execPilot h chmask en freq level s
  | .acoustic h chmask micmask stim when_ level => Sys2Proof.Machine.execAcoustic h chmask micmask stim when_ level s
  | .quietWindows h n wins => Sys2Proof.Machine.execQuietWindows h n wins s
  | .measBind h ring => Sys2Proof.Machine.execMeasBind h ring s
  | .ringSetup h ring desc => Sys2Proof.Machine.execRingSetup h ring desc s
  | .ringDestroy h ring => Sys2Proof.Machine.execRingDestroy h ring s
  | .isoReserve h rd wr => Sys2Proof.Machine.execIsoReserve h rd wr s
  | .envSet h chmask vmax tmax xmax plong rail lock => Sys2Proof.Machine.execEnvSet h chmask vmax tmax xmax plong rail lock s
  | .authChallenge h => Sys2Proof.Machine.execAuthChallenge h s
  | .envUnlock h chmask sig => Sys2Proof.Machine.execEnvUnlock h chmask sig s
  | .ownerKey h key sig => Sys2Proof.Machine.execOwnerKey h key sig s
  | .stage h target offset len src => Sys2Proof.Machine.execStage h target offset len src s
  | .stageCommit h target => Sys2Proof.Machine.execStageCommit h target s
  | .activate h image now => Sys2Proof.Machine.execActivate h image now s
  | .mordantClear h area sig => Sys2Proof.Machine.execMordantClear h area sig s
  | .mdtInfo h => Sys2Proof.Machine.execMdtInfo h s
  | .mdtExport h area first count ring => Sys2Proof.Machine.execMdtExport h area first count ring s
  | .mdtNote h code data => Sys2Proof.Machine.execMdtNote h code data s
  | .decPreset h mask preset => Sys2Proof.Machine.execDecPreset h mask preset s
  | .decFir h mask bank ntaps taps => Sys2Proof.Machine.execDecFir h mask bank ntaps taps s
  | .decSwap h mask => Sys2Proof.Machine.execDecSwap h mask s
  | .decDcblock h mask corner freeze => Sys2Proof.Machine.execDecDcblock h mask corner freeze s
  | .dsync h => Sys2Proof.Machine.execDsync h s
  | .policy h dies oc th => Sys2Proof.Machine.execPolicy h dies oc th s
  | .ocLimits h chmask ilim ncons mtrips win tretry rlim => Sys2Proof.Machine.execOcLimits h chmask ilim ncons mtrips win tretry rlim s
  | .thLimits h dies tfold => Sys2Proof.Machine.execThLimits h dies tfold s
  | .dcLimits h chmask vdc tdc edgewin => Sys2Proof.Machine.execDcLimits h chmask vdc tdc edgewin s
  | .faultClear h chmask => Sys2Proof.Machine.execFaultClear h chmask s
  | .emgMuteCmd h set hard ramp => Sys2Proof.Machine.execEmgMuteCmd h set hard ramp s
  | .faultCounters h chmask => Sys2Proof.Machine.execFaultCounters h chmask s
  | .commandAccept r => Sys2Proof.Machine.execCommandAccept r s
  | .stampedEffect n => Sys2Proof.Machine.execStampedEffect n s
  | .completionWrite sel => Sys2Proof.Machine.execCompletionWrite sel s
  | .heldRecordWrite k => Sys2Proof.Machine.execHeldRecordWrite k s
  | .cmdEntryFetch k e1 e2 d1 d2 => Sys2Proof.Machine.execCmdEntryFetch k e1 e2 d1 d2 s
  | .mbxDbWrite p ch whole v => Sys2Proof.Machine.execMbxDbWrite p ch whole v s
  | .noticeTake ch => Sys2Proof.Machine.execNoticeTake ch s
  | .mbxAckRead p ch byte0 => Sys2Proof.Machine.execMbxAckRead p ch byte0 s
  | .wdraw p ch => Sys2Proof.Machine.execWdraw p ch s
  | .dnTmoClear p ch => Sys2Proof.Machine.execDnTmoClear p ch s
  | .mailboxTimeout ch side => Sys2Proof.Machine.execMailboxTimeout ch side s
  | .upstreamPost ch => Sys2Proof.Machine.execUpstreamPost ch s
  | .mbxUpack p ch tag code => Sys2Proof.Machine.execMbxUpack p ch tag code s
  | .upstreamTimeout ch => Sys2Proof.Machine.execUpstreamTimeout ch s
  | .upstreamRepost ch => Sys2Proof.Machine.execUpstreamRepost ch s
  | .lockAcquireRead m n => Sys2Proof.Machine.execLockAcquireRead m n s
  | .lockRelease m n v => Sys2Proof.Machine.execLockRelease m n v s
  | .lockForce m n nn => Sys2Proof.Machine.execLockForce m n nn s
  | .doorbell fn k idx half => Sys2Proof.Machine.execDoorbell fn k idx half s
  | .drainComplete k timeouts => Sys2Proof.Machine.execDrainComplete k timeouts s
  | .resume fn st entries => Sys2Proof.Machine.execResume fn st entries s
  | .abort fn st => Sys2Proof.Machine.execAbort fn st s
  | .invalidateDomain fn seq => Sys2Proof.Machine.execInvalidateDomain fn seq s
  | .invalidatePage fn seq iova => Sys2Proof.Machine.execInvalidatePage fn seq iova s
  | .invalidateRegion fn seq iova => Sys2Proof.Machine.execInvalidateRegion fn seq iova s
  | .invalidateInternal fn seq => Sys2Proof.Machine.execInvalidateInternal fn seq s
  | .invalidationDone fn => Sys2Proof.Machine.execInvalidationDone fn s
  | .trnRootWrite fn internal part v => Sys2Proof.Machine.execTrnRootWrite fn internal part v s
  | .fenceLift fn internal => Sys2Proof.Machine.execFenceLift fn internal s
  | .translationFault st iova write len entries => Sys2Proof.Machine.execTranslationFault st iova write len entries s
  | .stallTimeout st => Sys2Proof.Machine.execStallTimeout st s
  | .readCompletion st iova len place r => Sys2Proof.Machine.execReadCompletion st iova len place r s
  | .completionTimeout st iova len => Sys2Proof.Machine.execCompletionTimeout st iova len s
  | .sramUe store index word iova => Sys2Proof.Machine.execSramUe store index word iova s
  | .sramSingleError store => Sys2Proof.Machine.execSramSingleError store s
  | .functionLevelReset fn => Sys2Proof.Machine.execFunctionLevelReset fn s
  | .linkTrained speed width => Sys2Proof.Machine.execLinkTrained speed width s
  | .linkDown cause => Sys2Proof.Machine.execLinkDown cause s
  | .registerWrite p a n v bad => Sys2Proof.Machine.execRegisterWrite p a n v bad s
  | .clearOnRead p a n => Sys2Proof.Machine.execClearOnRead p a n s
  | .sysTimeLatchRead p k => Sys2Proof.Machine.execSysTimeLatchRead p k s
  | .interruptCauseWrite fn off v => Sys2Proof.Machine.execInterruptCauseWrite fn off v s
  | .emgMuteWrite p v => Sys2Proof.Machine.execEmgMuteWrite p v s
  | .pinHeldClear p => Sys2Proof.Machine.execPinHeldClear p s
  | .vermInAssert => Sys2Proof.Machine.execVermInAssert s
  | .vermInRelease => Sys2Proof.Machine.execVermInRelease s
  | .mordantWindowLoad p from_ => Sys2Proof.Machine.execMordantWindowLoad p from_ s
  | .mordantWindowLoaded p => Sys2Proof.Machine.execMordantWindowLoaded p s
  | .freezeArm => Sys2Proof.Machine.execFreezeArm s
  | .freezeKeyTrigger => Sys2Proof.Machine.execFreezeKeyTrigger s
  | .freezeDisarm key => Sys2Proof.Machine.execFreezeDisarm key s
  | .freezeArmTimeout => Sys2Proof.Machine.execFreezeArmTimeout s
  | .freezeNFall highUs => Sys2Proof.Machine.execFreezeNFall highUs s
  | .sepiaFreeze => Sys2Proof.Machine.execSepiaFreeze s
  | .sepiaAddr off => Sys2Proof.Machine.execSepiaAddr off s
  | .sepiaRead n => Sys2Proof.Machine.execSepiaRead n s
  | .sepiaThaw => Sys2Proof.Machine.execSepiaThaw s
  | .tapTestLogicReset => Sys2Proof.Machine.execTapTestLogicReset s
  | .lineWord n w framing ns => Sys2Proof.Machine.execLineWord n w framing ns s
  | .lineWordTimeout n => Sys2Proof.Machine.execLineWordTimeout n s
  | .acquireTimerExpiry n => Sys2Proof.Machine.execAcquireTimerExpiry n s
  | .holdoverLimitExpiry n => Sys2Proof.Machine.execHoldoverLimitExpiry n s
  | .failoverReturn => Sys2Proof.Machine.execFailoverReturn s
  | .pairMismatchReport => Sys2Proof.Machine.execPairMismatchReport s
  | .dsyncNEdge qualified => Sys2Proof.Machine.execDsyncNEdge qualified s
  | .perstNAssert long => Sys2Proof.Machine.execPerstNAssert long s
  | .perstNRelease => Sys2Proof.Machine.execPerstNRelease s
  | .powerOnReset pins => Sys2Proof.Machine.execPowerOnReset pins s
  | .logicRailFault => Sys2Proof.Machine.execLogicRailFault s
  | .vdd3v3Low => Sys2Proof.Machine.execVdd3v3Low s
  | .powerFailTimeout => Sys2Proof.Machine.execPowerFailTimeout s
  | .vdd3v3Recover => Sys2Proof.Machine.execVdd3v3Recover s
  | .refClockLoss => Sys2Proof.Machine.execRefClockLoss s
  | .refClockRestore => Sys2Proof.Machine.execRefClockRestore s
  | .renderBlock doms stalls temps sense mics => Sys2Proof.Machine.execRenderBlock doms stalls temps sense mics s
  | .budgetShortReport => Sys2Proof.Machine.execBudgetShortReport s
  | .loopUpdate n v cur pvdd ov => Sys2Proof.Machine.execLoopUpdate n v cur pvdd ov s
  | .edgeStamp n b kind mismatch cut => Sys2Proof.Machine.execEdgeStamp n b kind mismatch cut s
  | .senseOverload n current unstable => Sys2Proof.Machine.execSenseOverload n current unstable s
  | .upstreamFrameCorrupt k => Sys2Proof.Machine.execUpstreamFrameCorrupt k s
  | .cycleTrip n b high coarse index cyc => Sys2Proof.Machine.execCycleTrip n b high coarse index cyc s
  | .ocShutdown n => Sys2Proof.Machine.execOcShutdown n s
  | .shareFault p => Sys2Proof.Machine.execShareFault p s
  | .dcFault n => Sys2Proof.Machine.execDcFault n s
  | .retryTimer n => Sys2Proof.Machine.execRetryTimer n s
  | .probeDone n mohm => Sys2Proof.Machine.execProbeDone n mohm s
  | .retriesResetTimer n => Sys2Proof.Machine.execRetriesResetTimer n s
  | .thermalShutdown p t => Sys2Proof.Machine.execThermalShutdown p t s
  | .thermalRecover k t0 t1 t2 t3 => Sys2Proof.Machine.execThermalRecover k t0 t1 t2 t3 s
  | .sensorFault p silent t => Sys2Proof.Machine.execSensorFault p silent t s
  | .sensorRecover p t => Sys2Proof.Machine.execSensorRecover p t s
  | .pvddFault k mv => Sys2Proof.Machine.execPvddFault k mv s
  | .pvddRecover k mv => Sys2Proof.Machine.execPvddRecover k mv s
  | .isoLink k lost => Sys2Proof.Machine.execIsoLink k lost s
  | .isoLinkRestore k => Sys2Proof.Machine.execIsoLinkRestore k s
  | .softStartDone n => Sys2Proof.Machine.execSoftStartDone n s
  | .identificationDone n f0 q => Sys2Proof.Machine.execIdentificationDone n f0 q s
  | .softStopDone n => Sys2Proof.Machine.execSoftStopDone n s
  | .zeroCrossing t => Sys2Proof.Machine.execZeroCrossing t s
  | .zeroCrossingTimeout t => Sys2Proof.Machine.execZeroCrossingTimeout t s
  | .disableRampDone t => Sys2Proof.Machine.execDisableRampDone t s
  | .estimationWindowEnd n vi mot i2 => Sys2Proof.Machine.execEstimationWindowEnd n vi mot i2 s
  | .pilotWindowEnd n meas => Sys2Proof.Machine.execPilotWindowEnd n meas s
  | .quietWindowOpen k => Sys2Proof.Machine.execQuietWindowOpen k s
  | .quietWindowClose k => Sys2Proof.Machine.execQuietWindowClose k s
  | .disturbanceWaitExpiry n => Sys2Proof.Machine.execDisturbanceWaitExpiry n s
  | .diagTestEnd n meas => Sys2Proof.Machine.execDiagTestEnd n meas s
  | .acousticOutputDone n mics => Sys2Proof.Machine.execAcousticOutputDone n mics s
  | .tdmFrame p periods din ns => Sys2Proof.Machine.execTdmFrame p periods din ns s
  | .bclkTimeout p => Sys2Proof.Machine.execBclkTimeout p s
  | .fsyncTimeout p => Sys2Proof.Machine.execFsyncTimeout p s
  | .rateIntervalEnd p rate => Sys2Proof.Machine.execRateIntervalEnd p rate s
  | .nonaudioRelease p pr => Sys2Proof.Machine.execNonaudioRelease p pr s
  | .micStuckDetect m => Sys2Proof.Machine.execMicStuckDetect m s
  | .micFaultClear m => Sys2Proof.Machine.execMicFaultClear m s
  | .micSettleEnd m => Sys2Proof.Machine.execMicSettleEnd m s
  | .sceneFrameParse r frame => Sys2Proof.Machine.execSceneFrameParse r frame s
  | .sceneFrameMissed r => Sys2Proof.Machine.execSceneFrameMissed r s
  | .sceneBankSwitch r => Sys2Proof.Machine.execSceneBankSwitch r s
  | .watchdogExpiry => Sys2Proof.Machine.execWatchdogExpiry s
  | .processorRestart => Sys2Proof.Machine.execProcessorRestart s
  | .processorReady good => Sys2Proof.Machine.execProcessorReady good s
  | .flywheelLimit => Sys2Proof.Machine.execFlywheelLimit s
  | .imageProven => Sys2Proof.Machine.execImageProven s
  | .mordantWrite => Sys2Proof.Machine.execMordantWrite s
  | .suppressionSecondEnd kind subject => Sys2Proof.Machine.execSuppressionSecondEnd kind subject s
  | .mordantClearDone => Sys2Proof.Machine.execMordantClearDone s
  | .mirrorCopy => Sys2Proof.Machine.execMirrorCopy s
  | .twAddress a read => Sys2Proof.Machine.execTwAddress a read s
  | .twWriteByte b => Sys2Proof.Machine.execTwWriteByte b s
  | .twReadByte => Sys2Proof.Machine.execTwReadByte s
  | .twStop => Sys2Proof.Machine.execTwStop s
  | .stretchTo => Sys2Proof.Machine.execStretchTo s
  | .sclStuck => Sys2Proof.Machine.execSclStuck s
  | .sdaStuck driving => Sys2Proof.Machine.execSdaStuck driving s
  | .twSuspend => Sys2Proof.Machine.execTwSuspend s
  | .sdaHeld => Sys2Proof.Machine.execSdaHeld s
  | .twSleepTimeout => Sys2Proof.Machine.execTwSleepTimeout s
  | .powerStateTransitionEnd => Sys2Proof.Machine.execPowerStateTransitionEnd s
  | .flashWriteDone tag hdr good => Sys2Proof.Machine.execFlashWriteDone tag hdr good s
  | .emgCfgWrite p v => Sys2Proof.Machine.execEmgCfgWrite p v s
  | .msixUnmask fn vec => Sys2Proof.Machine.execMsixUnmask fn vec s
  | .aspmL1Entry => Sys2Proof.Machine.execAspmL1Entry s
  | .twWakeReady => Sys2Proof.Machine.execTwWakeReady s

end Sys2Proof.Machine
end

