-- ==== Sys2Proof/Safety.lean ====
section
/-! DEFINITION. The terms that claims about the AB4832 use: what stays as it was, what reporting may touch, when a
Ramcen command passes its checks, and when a state is sound. -/

namespace Sys2Proof

/-! ### Groups of commands -/

/-- Commands after which locks or sideband window may differ: lock accesses, register accesses and sideband transfers,
sideband replies, and resets of a lock owner (R102, R105, R107, R370). -/
def Instr.reachesLocks (i : Instr) : Bool :=
  match i with
  | .lockAcquireRead _ _ | .lockRelease _ _ _ | .lockForce _ _ _ | .registerWrite _ _ _ _ _ | .clearOnRead _ _ _
  | .twWriteByte _ | .twReadByte | .completionWrite _ | .functionLevelReset _ | .linkDown _ | .sepiaThaw
  | .tapTestLogicReset | .processorRestart | .perstNAssert _ | .logicRailFault | .powerFailTimeout => true
  | _ => false

/-- Commands that may act on a frozen device: the two-wire port, reads and writes over a register path, the Mordant window,
the TAP, resets, supplies and the reference (R354, R360, R363, R364, R369–R377). -/
def Instr.actsFrozen (i : Instr) : Bool :=
  match i with
  | .lockAcquireRead _ _ | .registerWrite _ _ _ _ _ | .clearOnRead _ _ _ | .sysTimeLatchRead _ _ | .mordantWindowLoad _ _
  | .mordantWindowLoaded _ | .twAddress _ _ | .twWriteByte _ | .twReadByte | .twStop | .stretchTo | .sclStuck
  | .sdaStuck _ | .twSuspend | .sdaHeld | .twWakeReady | .sepiaAddr _ | .sepiaRead _ | .sepiaThaw | .perstNAssert _
  | .perstNRelease | .logicRailFault | .powerFailTimeout | .powerOnReset _ | .refClockLoss | .refClockRestore => true
  | _ => false

end Sys2Proof

namespace Sys2Proof.Machine

/-! ### What stays as it was -/

/-- Queue, locks and sideband window are as before. -/
def State.outerKept (s t : State) : Prop := t.pending = s.pending ∧ t.locks = s.locks ∧ t.win = s.win

/-- A function keeps every setting; only its interrupt causes, pending messages, held events and fault log differ. -/
def Fn.settingsKept (f g : Fn) : Prop :=
  g = { f with cause := g.cause, intMbx := g.intMbx, intRing := g.intRing, pba := g.pba, held := g.held,
               evtLost := g.evtLost, evtSeq := g.evtSeq, fltSeq := g.fltSeq, fltLost := g.fltLost, last := g.last }

/-- A function differs at most in its interrupt causes and pending messages (R48, R407, R408). -/
def Fn.signalled (f g : Fn) : Prop :=
  g = { f with cause := g.cause, intMbx := g.intMbx, intRing := g.intRing, pba := g.pba }

/-- The link keeps everything but L1, which any traffic ends, and the time of the last request (R47). -/
def Link.settingsKept (l m : Link) : Prop := m = { l with l1 := m.l1, lastReq := m.lastReq }

/-- At most interrupt messages have left and interrupt causes have risen. -/
def Dev.signalled (d e : Dev) : Prop :=
  e = { d with fns := e.fns, out := e.out, link := e.link } ∧ (∀ n, Fn.signalled (d.fn n) (e.fn n))
    ∧ d.link.settingsKept e.link

/-- A ring keeps everything but the place of its next record (R71), its watermark (R74) and its counts of records held and
lost (R85); a RUNNING one may have stalled on a page that refuses the record (R53). -/
def Ring.settingsKept (r q : Ring) : Prop :=
  q = { r with tail := q.tail, didx := q.didx, pubSc := q.pubSc, armed := q.armed, wmDue := q.wmDue, st := q.st,
               cntA := q.cntA, cntB := q.cntB }
    ∧ (q.st = r.st ∨ (r.st = .running ∧ q.st = .stalled))

/-- A mailbox channel keeps everything but messages that wait to be posted and their refusals (R96, R161). -/
def Mbx.settingsKept (m n : Mbx) : Prop := n = { m with repost := n.repost, upRefused := n.upRefused }

/-- Translation keeps roots, caches and invalidations; only stalls, the reads they discard and marks of staged data differ
(R53, R64). -/
def Trn.settingsKept (t u : Trn) : Prop := u = { t with stalls := u.stalls, reads := u.reads, poison := u.poison }

/-- At most events, fault records, Mordant records and messages have been produced (R57, R69, R124, R161, R353). -/
def Dev.reported (d e : Dev) : Prop :=
  e = { d with faults := e.faults, fns := e.fns, rings := e.rings, mbxs := e.mbxs, out := e.out, link := e.link, mdt := e.mdt,
               trn := e.trn }
    ∧ (∀ n, Fn.settingsKept (d.fn n) (e.fn n)) ∧ (∀ k, Ring.settingsKept (d.ring k) (e.ring k))
    ∧ (∀ ch, Mbx.settingsKept (d.mbx ch) (e.mbx ch)) ∧ d.link.settingsKept e.link ∧ d.trn.settingsKept e.trn

/-! ### Channels that stop and start -/

/-- At most channels, the commands that end with them, and reports differ. -/
def Dev.chansDiffer (d e : Dev) : Prop :=
  e = { d with chans := e.chans, tags := e.tags, dones := e.dones, faults := e.faults, fns := e.fns, rings := e.rings,
               mbxs := e.mbxs, out := e.out, link := e.link, mdt := e.mdt, trn := e.trn }

/-- The emergency layer has the sources of `x`; only its ramp and ACTIVE may differ (R276). -/
def Emg.sourcesAs (x g : Emg) : Prop :=
  g = { x with ramp0 := g.ramp0, level := g.level, rampAt := g.rampAt, rampLen := g.rampLen, down := g.down, active := g.active }

/-- A hold of a rank is in force on some channels: none of their transistors is on, and FCODE says why unless a hold of a
higher rank does (R15, R220, R281). -/
def Dev.heldOff (e : Dev) (l : List Nat) (code rank : Nat) : Prop :=
  ∀ n ∈ l, (e.chan n).st.on = false ∧ (e.holdRank n ≤ rank → (e.chan n).flt.code = code)

/-- Enabled channels that waited in HIZ start again unless another hold keeps them there (R220). -/
def Dev.resumes (d e : Dev) : Prop :=
  ∀ n, n < 48 → (d.chan n).st = .hiz → (d.chan n).enabled = true →
    (e.held n = false → (e.chan n).st = .softStart) ∧ (e.held n = true → (e.chan n).st = .hiz)

/-- A channel has been shut down with a fault code (R263, R268, R270): latched under CYCLE_LIMIT_LATCH or once its retries
are used up, else waiting TRETRY for the next one. -/
def Dev.shutAs (d e : Dev) (n code : Nat) : Prop :=
  let f := (d.chan n).flt
  let last : Prop := (d.die (dieOf n)).oc = 1 ∨ (f.rlim ≠ 0 ∧ f.rlim ≤ f.retries)
  (e.chan n).flt.code = code ∧ (last → (e.chan n).st = .latched)
    ∧ (¬last → (e.chan n).st = .retry ∧ (e.chan n).flt.retryAt = some (d.sys.uptime + 10000 * f.tretry))

/-- Channels outside a list are as before. -/
def Dev.otherChans (d e : Dev) (l : List Nat) : Prop := ∀ m, m ∉ l → e.chan m = d.chan m

/-! ### Sound states -/

/-- The sideband window is in canonical form, every lock is free or held by one of the five masters, and the lock error
counts fit their fields (R8, R102, R104, R105). -/
structure State.Sound (s : State) : Prop where
  win : Memory.wf s.win = true
  owner : ∀ n, s.locks.who n ≤ 5
  ignored : s.locks.ignored ≤ 65535
  forced : s.locks.forced ≤ 65535

/-! ### Ramcen commands (R110–R119) -/

/-- The device as the checks of a command see it: its tag is taken and its payload is known (R114). -/
def Dev.entered (d : Dev) (h : Hdr) (c : Cmd) : Dev :=
  (d.takeTag h (Cmd.op c)).updTag h.tag
    (fun t => { t with cmd := some c, rsvd := 0, hdr := t.hdr.map (fun h => { h with rsvd := h.rsvd + 0 }) })

/-- No command waits because it is ORDERED (R118). -/
def Dev.noneWaits (d : Dev) : Prop := ∀ e ∈ d.tags, e.2.st = .active → e.2.ph ≠ .waiting

/-- The descriptor is taken up: engines and processor run, it comes by a way that is open, under a free tag of its
sender's (R16, R113–R115), and the ring it comes from is not being destroyed. -/
structure Dev.takesUp (d : Dev) (h : Hdr) : Prop where
  live : d.live = true
  ready : d.sys.ready = true
  arrives : d.arrives h.via = true
  own : ownTag (d.senderOf h.via) h.tag = true
  free : (d.tag h.tag).st = .free
  keeps : d.draining h.via = none
  idle : d.noneWaits

/-- The command passes every check of R116, waits for no other (R118), and no disable covers it (R123). -/
structure Dev.passes (d : Dev) (h : Hdr) (c : Cmd) : Prop extends Dev.takesUp d h where
  early : (d.takeTag h (Cmd.op c)).early h (Cmd.op c) = none
  count : countOk (Cmd.op c) h.plen (Cmd.count c) = true
  free_ : (d.entered h c).blocked h.tag = false
  auth : ((d.entered h c).authorise c 0).2 = true
  valid : ((d.entered h c).authorise c 0).1.refuse h.tag h c = none
  open_ : ((d.entered h c).authorise c 0).1.swept h.tag c = none

/-- Tag `n` has ended: DONE with a status, no effect outstanding (R114, R119). -/
def Dev.ended (e : Dev) (n status : Nat) : Prop := (e.tag n).st = .done ∧ (e.tag n).status = status ∧ (e.tag n).effs = []

/-- Every other tag is as before. -/
def Dev.otherTags (d e : Dev) (n : Nat) : Prop := ∀ m, m ≠ n → e.tag m = d.tag m

/-- Nothing delays the command (R118, R418): it is not stamped, and it is a command of moment A or D, a disable, or one that
changes resources of DISABLED domains only; it takes effect at acceptance. A pilot stops at its block boundary (R298). -/
structure Dev.actsNow (d : Dev) (h : Hdr) (c : Cmd) : Prop extends Dev.passes d h c where
  asap : h.atLt = false
  now : Cmd.mom c = .a ∨ Cmd.mom c = .dis ∨ Cmd.stopsNow c = true ∨ ∀ r ∈ d.domsOf c, (d.dom r).st = .disabled

/-- The command's result buffer is reached at once: given, of a function that is not fenced and does not translate, its tag's
stream not stalled (R50, R53, R58, R111). -/
def Dev.writesOut (d : Dev) (h : Hdr) : Prop :=
  h.outlen ≠ 0 ∧ (d.fn (fnOf (d.senderOf h.via))).fenced = false ∧ (d.fn (fnOf (d.senderOf h.via))).trnEn = false
    ∧ d.stalled (0x1000 + h.tag) = false

/-- The bytes have left for the command's result buffer (R111). -/
def Dev.wrote (d e : Dev) (h : Hdr) (bytes : List Nat) : Prop :=
  ∃ a, Out.write (fnOf (d.senderOf h.via)) h.out (some h.out) a bytes ∈ e.out

/-- `exec` answers a next state whose device has a property, with queue, locks and window as before. -/
def State.runs (s : State) (i : Instr) (p : Dev → Prop) : Prop := ∃ e, exec i s = .next { s with dev := e } ∧ p e

/-- The command has acted: beside the effect `x` only its own tag has changed, which is DONE with OK and its RESULT (R114,
R119). -/
def Dev.acted (d e x : Dev) (h : Hdr) (result : Nat) : Prop :=
  e = { x with tags := e.tags, accepts := d.accepts + 1, dones := d.dones + 1 } ∧ e.ended h.tag OK
    ∧ (e.tag h.tag).result = result ∧ d.otherTags e h.tag

/-- The same where the effect also produces events, Mordant records and messages. -/
def Dev.actedReporting (d e x : Dev) (h : Hdr) (result : Nat) : Prop := ∃ y, Dev.reported x y ∧ d.acted e y h result

/-- The command has been turned away or cancelled: only its own tag has changed, which is DONE with the status, LT and RESULT
zero (R119). -/
def Dev.turnedAway (d e : Dev) (h : Hdr) (status : Nat) : Prop :=
  e = { d with tags := e.tags, accepts := d.accepts + 1, dones := d.dones + 1 } ∧ e.ended h.tag status
    ∧ (e.tag h.tag).lt = 0 ∧ (e.tag h.tag).result = 0 ∧ d.otherTags e h.tag

end Sys2Proof.Machine
end

