-- ==== Sys2Proof/WellFormed.lean ====
section
/-! DEFINITION. Well-formed commands: every field of a descriptor and its payload lies within its size (R110, R134), and
every number of an event names something that exists. -/

namespace Sys2Proof

/-- A number fits in `n` bytes. -/
def fits (n v : Nat) : Bool := decide (v < 2 ^ (8 * n))
/-- A signed number fits in `n` bytes. -/
def fitsI (n : Nat) (v : Int) : Bool := decide (-(2 ^ (8 * n - 1) : Int) ≤ v) && decide (v < 2 ^ (8 * n - 1))

/-- A descriptor's fields lie within their sizes (R110). -/
def Hdr.wf (h : Hdr) : Bool :=
  fits 2 h.tag && decide (h.domain < 4) && fits 8 h.lt && fits 8 h.payload && fits 4 h.plen && fits 8 h.out && fits 4 h.outlen
    && decide (h.len ≤ 65536) && (match h.via with | .ring k => decide (k < 4096) | .mbx ch => decide (ch < 64) | .sideband => true)

/-- A point's coordinates. -/
def Point.wf (p : Point) : Bool := fitsI 4 p.x && fitsI 4 p.y && fitsI 4 p.z
/-- A CTX_WRITE entry (R145). -/
def CtxEntry.wf (e : CtxEntry) : Bool :=
  fits 2 e.ctx && fits 1 e.valid && fits 1 e.taps && fits 4 e.gain && fits 4 e.delay && fits 2 e.shape && fits 2 e.ramp
/-- COEF (R214). -/
def Coef.wf (c : Coef) : Bool :=
  fits 4 c.flags && fits 4 c.vfs && [c.kr, c.kv, c.ki, c.kz1, c.kz2, c.kd, c.lv, c.li, c.ld].all (fitsI 4)
    && c.phi.length = 4 && c.phi.all (fitsI 4) && c.gamma.length = 2 && c.gamma.all (fitsI 4) && c.pre.length = 15
    && c.pre.all (fitsI 4) && fits 4 c.ulim && fits 4 c.zlim && fits 4 c.ffAlpha
/-- CONST (R247). -/
def ConstSet.wf (c : ConstSet) : Bool :=
  fits 4 c.flags && fitsI 2 c.t0 && fitsI 2 c.ta0 && [c.rthCm, c.rthMf, c.rthFa, c.cthC, c.cthM, c.cthF, c.ke].all (fits 4)
    && [c.kc, c.ka, c.tauLong, c.knee, c.horizon].all (fits 2)
/-- TS (R251). -/
def TsSet.wf (t : TsSet) : Bool :=
  [t.re, t.le, t.bl, t.mms, t.cms, t.rms].all (fits 4) && [t.hpmin, t.hpmax, t.hpthr, t.release].all (fits 2)
/-- A quiet window (R150). -/
def QWin.wf (w : QWin) : Bool := fits 8 w.start && fits 4 w.dur && fits 4 w.period
/-- A ring descriptor (R68). -/
def RingDesc.wf (r : RingDesc) : Bool :=
  fits 8 r.base && [r.log2n, r.type, r.domain, r.owner, r.vector, r.state].all (fits 1) && fits 2 r.esize && fits 4 r.wmark
    && fits 2 r.bind && fits 4 r.head && fits 4 r.tail

/-- A payload's fields lie within their sizes (R134–R158). -/
def Cmd.wf (c : Cmd) : Bool :=
  match c with
  | .getInfo => true
  | .getSummary => true
  | .cancel target => fits 2 target
  | .tbRate dom rate drate lpf => fits 1 dom && fits 1 rate && fits 1 drate && fits 2 lpf
  | .tbEnable dom en => fits 1 dom && fits 1 en
  | .tbTiming dom mask cable lpres hold => fits 1 dom && fits 1 mask && fits 2 cable && fits 4 lpres && fits 4 hold
  | .tbDpll dom bw => fits 1 dom && fits 2 bw
  | .tbClockmaster dom => fits 1 dom
  | .tbPair doma domb en offset => fits 1 doma && fits 1 domb && fits 1 en && fitsI 2 offset
  | .mbxConfig ch set cpl vec tmo upbuf =>
    fits 1 ch && fits 1 set && fits 2 cpl && fits 1 vec && fits 2 tmo && fits 8 upbuf
  | .restart mode => fits 1 mode
  | .powerState state => fits 1 state
  | .twConfig addr2 mmode mask stretch => fits 1 addr2 && fits 1 mmode && fits 1 mask && fits 1 stretch
  | .chEnable chmask en dom => fits 8 chmask && fits 1 en && fits 1 dom
  | .chVolume chmask vol ramp => fits 8 chmask && fits 2 ramp && fitsI 2 vol
  | .chMute chmask mute ramp => fits 8 chmask && fits 1 mute && fits 2 ramp
  | .chBridge pairs => fits 4 pairs
  | .chLoop chmask coef => fits 8 chmask && Coef.wf coef
  | .chCarrier chmask period pmode phase => fits 8 chmask && fits 2 period && fits 1 pmode && fits 1 phase
  | .chZcto chmask zcto => fits 8 chmask && fits 2 zcto
  | .chStatus ch => fits 1 ch
  | .objSource obj src dom bind prio => fits 2 obj && fits 1 src && fits 1 dom && fits 2 bind && fits 1 prio
  | .objPosition obj pos gain => fits 2 obj && fitsI 2 gain && Point.wf pos
  | .objBulkdelay obj delay ldly => fits 2 obj && fits 4 delay && fits 2 ldly
  | .ctxWrite n entries => fits 2 n && (entries.length = n && entries.all CtxEntry.wf)
  | .shapeLoad first n taps => fits 2 first && fits 2 n && (taps.length = 64 * n && taps.all (fitsI 4))
  | .geometry first n pts => fits 1 first && fits 1 n && (pts.length = n && pts.all Point.wf)
  | .panLaw law param => fits 1 law && fits 2 param
  | .sceneConfig dom en p ring => fits 1 dom && fits 1 en && fits 1 p && fits 2 ring
  | .objBasic obj => fits 2 obj
  | .portPreset port preset role dom => fits 1 port && fits 1 preset && fits 1 role && fits 1 dom
  | .portFormat port slots width offset fsw pol role dom =>
    fits 1 port && fits 1 slots && fits 1 width && fits 1 offset && fits 1 fsw && fits 1 pol && fits 1 role
      && fits 1 dom
  | .portEnable port en rxring txring => fits 1 port && fits 1 en && fits 2 rxring && fits 2 txring
  | .portMask port rx tx => fits 1 port && fits 4 rx && fits 4 tx
  | .portSlip port group win zcto => fits 1 port && fits 1 group && fits 2 win && fits 2 zcto
  | .portRoute port src => fits 1 port && (src.length = 32 && src.all (fits 2))
  | .pdmConfig clk micmask gmask => fits 1 clk && fits 4 micmask && (gmask.length = 4 && gmask.all (fits 4))
  | .protProfile chmask profile => fits 8 chmask && fits 2 profile
  | .protThermal chmask c => fits 8 chmask && ConstSet.wf c
  | .protTs chmask t => fits 8 chmask && TsSet.wf t
  | .protLimits chmask vmax tmax xmax plong =>
    fits 8 chmask && fits 2 vmax && fits 2 tmax && fits 2 xmax && fits 2 plong
  | .railBudget budget => fits 2 budget
  | .diagRun chmask test when_ => fits 8 chmask && fits 1 test && fits 1 when_
  | .diagTones chmask when_ flo fhi level dur =>
    fits 8 chmask && fits 1 when_ && fits 2 flo && fits 2 fhi && fits 2 dur && fitsI 2 level
  | .pilot chmask en freq level => fits 8 chmask && fits 1 en && fits 2 freq && fitsI 2 level
  | .acoustic chmask micmask stim when_ level =>
    fits 8 chmask && fits 4 micmask && fits 1 stim && fits 1 when_ && fitsI 2 level
  | .quietWindows n wins => fits 1 n && (wins.length = n && wins.all QWin.wf)
  | .measBind ring => fits 2 ring
  | .ringSetup ring desc => fits 2 ring && RingDesc.wf desc
  | .ringDestroy ring => fits 2 ring
  | .isoReserve rd wr => fits 2 rd && fits 2 wr
  | .envSet chmask vmax tmax xmax plong rail lock =>
    fits 8 chmask && fits 2 vmax && fits 2 tmax && fits 2 xmax && fits 2 plong && fits 2 rail && fits 1 lock
  | .authChallenge => true
  | .envUnlock chmask sig => fits 8 chmask && fits 64 sig
  | .ownerKey key sig => fits 64 key && fits 64 sig
  | .stage target offset len src => fits 1 target && fits 4 offset && fits 4 len && fits 8 src
  | .stageCommit target => fits 1 target
  | .activate image now => fits 1 image && fits 1 now
  | .mordantClear area sig => fits 1 area && fits 64 sig
  | .mdtInfo => true
  | .mdtExport area first count ring => fits 1 area && fits 4 first && fits 4 count && fits 2 ring
  | .mdtNote code data => fits 2 code && data.length = 32
  | .decPreset mask preset => fits 16 mask && fits 1 preset
  | .decFir mask bank ntaps taps =>
    fits 16 mask && fits 1 bank && fits 1 ntaps && (taps.length = ntaps && taps.all (fitsI 4))
  | .decSwap mask => fits 16 mask
  | .decDcblock mask corner freeze => fits 16 mask && fits 2 corner && fits 1 freeze
  | .dsync => true
  | .policy dies oc th => fits 1 dies && fits 1 oc && fits 1 th
  | .ocLimits chmask ilim ncons mtrips win tretry rlim =>
    fits 8 chmask && fits 2 ilim && fits 1 ncons && fits 1 mtrips && fits 2 win && fits 2 tretry && fits 1 rlim
  | .thLimits dies tfold => fits 1 dies && fits 2 tfold
  | .dcLimits chmask vdc tdc edgewin => fits 8 chmask && fits 2 vdc && fits 2 tdc && fits 1 edgewin
  | .faultClear chmask => fits 8 chmask
  | .emgMuteCmd set hard ramp => fits 1 set && fits 1 hard && fits 2 ramp
  | .faultCounters chmask => fits 8 chmask

/-- The descriptor and the command of a Ramcen row; none for the other rows. -/
def Instr.ramcen : Instr → Option (Hdr × Cmd)
  | .getInfo h => some (h, .getInfo)
  | .getSummary h => some (h, .getSummary)
  | .cancel h target => some (h, .cancel target)
  | .tbRate h dom rate drate lpf => some (h, .tbRate dom rate drate lpf)
  | .tbEnable h dom en => some (h, .tbEnable dom en)
  | .tbTiming h dom mask cable lpres hold => some (h, .tbTiming dom mask cable lpres hold)
  | .tbDpll h dom bw => some (h, .tbDpll dom bw)
  | .tbClockmaster h dom => some (h, .tbClockmaster dom)
  | .tbPair h doma domb en offset => some (h, .tbPair doma domb en offset)
  | .mbxConfig h ch set cpl vec tmo upbuf => some (h, .mbxConfig ch set cpl vec tmo upbuf)
  | .restart h mode => some (h, .restart mode)
  | .powerState h state => some (h, .powerState state)
  | .twConfig h addr2 mmode mask stretch => some (h, .twConfig addr2 mmode mask stretch)
  | .chEnable h chmask en dom => some (h, .chEnable chmask en dom)
  | .chVolume h chmask vol ramp => some (h, .chVolume chmask vol ramp)
  | .chMute h chmask mute ramp => some (h, .chMute chmask mute ramp)
  | .chBridge h pairs => some (h, .chBridge pairs)
  | .chLoop h chmask coef => some (h, .chLoop chmask coef)
  | .chCarrier h chmask period pmode phase => some (h, .chCarrier chmask period pmode phase)
  | .chZcto h chmask zcto => some (h, .chZcto chmask zcto)
  | .chStatus h ch => some (h, .chStatus ch)
  | .objSource h obj src dom bind prio => some (h, .objSource obj src dom bind prio)
  | .objPosition h obj pos gain => some (h, .objPosition obj pos gain)
  | .objBulkdelay h obj delay ldly => some (h, .objBulkdelay obj delay ldly)
  | .ctxWrite h n entries => some (h, .ctxWrite n entries)
  | .shapeLoad h first n taps => some (h, .shapeLoad first n taps)
  | .geometry h first n pts => some (h, .geometry first n pts)
  | .panLaw h law param => some (h, .panLaw law param)
  | .sceneConfig h dom en p ring => some (h, .sceneConfig dom en p ring)
  | .objBasic h obj => some (h, .objBasic obj)
  | .portPreset h port preset role dom => some (h, .portPreset port preset role dom)
  | .portFormat h port slots width offset fsw pol role dom => some (h, .portFormat port slots width offset fsw pol role dom)
  | .portEnable h port en rxring txring => some (h, .portEnable port en rxring txring)
  | .portMask h port rx tx => some (h, .portMask port rx tx)
  | .portSlip h port group win zcto => some (h, .portSlip port group win zcto)
  | .portRoute h port src => some (h, .portRoute port src)
  | .pdmConfig h clk micmask gmask => some (h, .pdmConfig clk micmask gmask)
  | .protProfile h chmask profile => some (h, .protProfile chmask profile)
  | .protThermal h chmask c => some (h, .protThermal chmask c)
  | .protTs h chmask t => some (h, .protTs chmask t)
  | .protLimits h chmask vmax tmax xmax plong => some (h, .protLimits chmask vmax tmax xmax plong)
  | .railBudget h budget => some (h, .railBudget budget)
  | .diagRun h chmask test when_ => some (h, .diagRun chmask test when_)
  | .diagTones h chmask when_ flo fhi level dur => some (h, .diagTones chmask when_ flo fhi level dur)
  | .pilot h chmask en freq level => some (h, .pilot chmask en freq level)
  | .acoustic h chmask micmask stim when_ level => some (h, .acoustic chmask micmask stim when_ level)
  | .quietWindows h n wins => some (h, .quietWindows n wins)
  | .measBind h ring => some (h, .measBind ring)
  | .ringSetup h ring desc => some (h, .ringSetup ring desc)
  | .ringDestroy h ring => some (h, .ringDestroy ring)
  | .isoReserve h rd wr => some (h, .isoReserve rd wr)
  | .envSet h chmask vmax tmax xmax plong rail lock => some (h, .envSet chmask vmax tmax xmax plong rail lock)
  | .authChallenge h => some (h, .authChallenge)
  | .envUnlock h chmask sig => some (h, .envUnlock chmask sig)
  | .ownerKey h key sig => some (h, .ownerKey key sig)
  | .stage h target offset len src => some (h, .stage target offset len src)
  | .stageCommit h target => some (h, .stageCommit target)
  | .activate h image now => some (h, .activate image now)
  | .mordantClear h area sig => some (h, .mordantClear area sig)
  | .mdtInfo h => some (h, .mdtInfo)
  | .mdtExport h area first count ring => some (h, .mdtExport area first count ring)
  | .mdtNote h code data => some (h, .mdtNote code data)
  | .decPreset h mask preset => some (h, .decPreset mask preset)
  | .decFir h mask bank ntaps taps => some (h, .decFir mask bank ntaps taps)
  | .decSwap h mask => some (h, .decSwap mask)
  | .decDcblock h mask corner freeze => some (h, .decDcblock mask corner freeze)
  | .dsync h => some (h, .dsync)
  | .policy h dies oc th => some (h, .policy dies oc th)
  | .ocLimits h chmask ilim ncons mtrips win tretry rlim => some (h, .ocLimits chmask ilim ncons mtrips win tretry rlim)
  | .thLimits h dies tfold => some (h, .thLimits dies tfold)
  | .dcLimits h chmask vdc tdc edgewin => some (h, .dcLimits chmask vdc tdc edgewin)
  | .faultClear h chmask => some (h, .faultClear chmask)
  | .emgMuteCmd h set hard ramp => some (h, .emgMuteCmd set hard ramp)
  | .faultCounters h chmask => some (h, .faultCounters chmask)
  | _ => none

/-- What a read delivers fits in a buffer of 64 KiB (R60). -/
def ReadRes.wf (r : ReadRes) : Bool := match r with | .data b => decide (b.length ≤ 65536) | _ => true

/-- Places that an event may name: a channel, an object, a slot of a port. -/
def Target.wf (t : Target) : Bool :=
  match t with
  | .chan n => decide (n < 48)
  | .obj o => decide (o < 256)
  | .port p k => decide (p < 4) && decide (k < 64)

/-- The numbers of an event name things that exist; true of every Ramcen row. -/
def Instr.eventWf : Instr → Bool
  | .commandAccept r => ReadRes.wf r
  | .stampedEffect n => decide (n < 512)
  | .completionWrite (.tag n) => decide (n < 512)
  | .cmdEntryFetch k e1 e2 d1 d2 => decide (k < 4096) && [e1, e2, d1, d2].all ReadRes.wf
  | .heldRecordWrite k | .drainComplete k _ => decide (k < 4096)
  | .mbxDbWrite _ ch _ v => decide (ch < 64) && fits 8 v
  | .mbxUpack _ ch tag code => decide (ch < 64) && fits 2 tag && fits 2 code
  | .noticeTake ch | .mbxAckRead _ ch _ | .wdraw _ ch | .dnTmoClear _ ch | .mailboxTimeout ch _ | .upstreamPost ch
  | .upstreamTimeout ch | .upstreamRepost ch => decide (ch < 64)
  | .lockAcquireRead _ n => decide (n < 32)
  | .lockRelease _ n v => decide (n < 32) && fits 4 v
  | .lockForce _ n nn => decide (n < 32) && fits 1 nn
  | .doorbell fn k idx _ => decide (fn < 2) && decide (k < 4096) && fits 4 idx
  | .resume fn st _ | .abort fn st => decide (fn < 2) && fits 2 st
  | .invalidateDomain fn seq | .invalidateInternal fn seq => decide (fn < 2) && fits 1 seq
  | .invalidatePage fn seq iova | .invalidateRegion fn seq iova => decide (fn < 2) && fits 1 seq && fits 8 iova
  | .invalidationDone fn | .functionLevelReset fn | .fenceLift fn _ => decide (fn < 2)
  | .msixUnmask fn vec => decide (fn < 2) && (match vec with | some v => decide (v < 128) | none => true)
  | .trnRootWrite fn _ part v => decide (fn < 2) && decide (part < 3) && fits 8 v
  | .translationFault st iova _ len _ | .completionTimeout st iova len => fits 2 st && fits 8 iova && fits 4 len
  | .readCompletion st iova len _ r => fits 2 st && fits 8 iova && fits 4 len && ReadRes.wf r
  | .stallTimeout st => fits 2 st
  | .sramUe store _ _ iova => decide (1 ≤ store ∧ store ≤ 6) && fits 8 iova
  | .sramSingleError store => decide (1 ≤ store ∧ store ≤ 6)
  | .linkTrained speed width => decide (1 ≤ speed ∧ speed ≤ 4) && (width = 1 || width = 2)
  | .registerWrite _ a n v _ => fits 4 a.off && (n = 1 || n = 2 || n = 4 || n = 8) && fits n v
  | .clearOnRead _ a n => fits 4 a.off && (n = 1 || n = 2 || n = 4 || n = 8)
  | .sysTimeLatchRead _ k => decide (k < 6)
  | .mordantWindowLoad _ v => fits 4 v
  | .suppressionSecondEnd kind subject => fits 2 kind && fits 2 subject
  | .powerOnReset pins => decide (pins < 8)
  | .flashWriteDone n _ _ => decide (n < 512)
  | .interruptCauseWrite fn off v => decide (fn < 2) && fits 4 off && fits 4 v
  | .emgMuteWrite _ v | .emgCfgWrite _ v => fits 4 v
  | .freezeDisarm key => fits 1 key
  | .sepiaAddr off => fits 4 off
  | .lineWord n w _ _ => decide (n < 4) && fits 8 w
  | .lineWordTimeout n | .acquireTimerExpiry n | .holdoverLimitExpiry n => decide (n < 4)
  | .renderBlock doms _ _ _ _ => doms.all (fun r => decide (r < 4))
  | .edgeStamp n _ kind _ _ => decide (n < 48) && decide (kind < 3)
  | .loopUpdate n v i _ _ => decide (n < 48) && decide (32 ≤ v.length ∧ v.length ≤ 63) && i.length = v.length
  | .senseOverload n _ _ | .cycleTrip n _ _ _ _ _ | .ocShutdown n | .dcFault n
  | .retryTimer n | .probeDone n _ | .retriesResetTimer n | .softStartDone n | .identificationDone n _ _ | .softStopDone n
  | .estimationWindowEnd n _ _ _ | .pilotWindowEnd n _ | .disturbanceWaitExpiry n | .diagTestEnd n _
  | .acousticOutputDone n _ => decide (n < 48)
  | .shareFault p | .thermalShutdown p _ | .sensorFault p _ _ | .sensorRecover p _ => decide (p < 24)
  | .thermalRecover k _ _ _ _ | .pvddFault k _ | .pvddRecover k _ | .isoLink k _ | .isoLinkRestore k | .upstreamFrameCorrupt k =>
    decide (k < 6)
  | .zeroCrossing t | .zeroCrossingTimeout t | .disableRampDone t => Target.wf t
  | .quietWindowOpen k | .quietWindowClose k => decide (k < 8)
  | .tdmFrame p _ din _ => decide (p < 4) && decide (din.length ≤ 1055)
  | .bclkTimeout p | .fsyncTimeout p | .rateIntervalEnd p _ => decide (p < 4)
  | .nonaudioRelease p pr => decide (p < 4) && decide (pr < 16)
  | .micStuckDetect m | .micFaultClear m | .micSettleEnd m => decide (m < 32)
  | .sceneFrameParse r _ | .sceneFrameMissed r | .sceneBankSwitch r => decide (r < 4)
  | .twAddress a _ => decide (a < 128)
  | .twWriteByte b => fits 1 b
  | _ => true

/-- A well-formed command. -/
def Instr.wf (i : Instr) : Bool :=
  match i.ramcen with
  | some (h, c) => Hdr.wf h && Cmd.wf c
  | none => i.eventWf

end Sys2Proof
end

