-- ==== Sys2Proof/Certificates/Slice0/Obligations.lean ====
section
/-! DEFINITION. The statements about the AB4832 that the provers settle, from the numbered rules of spec/. Names of
resources, record codes and units are the manual's; `s` is any state, and a conclusion of the form
`exec … = .next t` says that the command completes with exactly that state. -/

open Sys2Proof Sys2Proof.Machine

/-! ### The whole block -/

/-- A step of the block runs the command at the front of the queue on the rest of the state. -/
def Obligations.StepRunsFrontCommand : Prop :=
  ∀ (c : Instr) (q : List Instr) (s : State),
    s.pending = c :: q → step s = exec c { s with pending := q }

/-- With no command waiting a microsecond passes (the model's choice, log entry 1): a running device takes the step of
`Dev.idle`; under PERST_N only SYS_UPTIME goes on; in power-on reset and while the device is frozen nothing moves
(R360, R369). Queue, locks and window stay. -/
def Obligations.EmptyQueuePassesOneMicrosecond : Prop :=
  ∀ s : State, s.pending = [] → ∃ t, step s = .next t ∧ s.outerKept t
    ∧ (s.dev.live = true → t = { s with dev := s.dev.idle })
    ∧ ((s.dev.sys.por = true ∨ s.dev.fz.frozen = true) → t = s)
    ∧ (s.dev.sys.perst = true → s.dev.sys.por = false → s.dev.fz.frozen = false →
        t.dev.sys.uptime = (s.dev.sys.uptime + 1) % 2 ^ 48 ∧ t.dev.chans = s.dev.chans ∧ t.dev.out = s.dev.out)

/-- What reset leaves, where the manual gives it: link down (R66), EPOCH 1 (R120), the receiver down (R88), every lock
free (R104), every domain DISABLED with 60 Hz, 1,125 lines, L_pres 5,000 µs, holdover limit 2,000 ms and 20 Hz
(R40), every channel DISABLED at 0 dB and unmuted with ZCTO 10 ms, carrier period 1,600 and mode 1 (R141), POLICY
and limits of the dies (R158), ramps of the emergency layer 2.0 ms with OUT_PIN set (R278), STALL_TO 1,000 ms (R58),
MBX timeout 10 ms (R98), pan law 1 (R177), ISO_RESERVE 4,000 MB/s both ways (R49, R152), RAIL_BUDGET 250 (R149). -/
def Obligations.ResetLeavesStatedValues : Prop :=
  let d := State.reset.dev
  d.link.up = false ∧ d.sys.epoch = 1 ∧ d.sys.ready = false ∧ d.fz.frozen = false ∧ d.emg.outPin = true
    ∧ d.emg.ramp = 20 ∧ d.emg.pinRamp = 20 ∧ (∀ n, State.reset.locks.who n = 0) ∧ State.reset.win = [] ∧ State.reset.pending = []
    ∧ d.period = 1600 ∧ d.railBudget = 250
    ∧ (∀ n, (d.dom n).st = .disabled ∧ (d.dom n).rate = 2 ∧ (d.dom n).nomLpf = 1125 ∧ (d.dom n).lpres = 5000
        ∧ (d.dom n).holdLim = 2000 ∧ (d.dom n).bw = 20)
    ∧ (∀ n, (d.chan n).st = .disabled ∧ (d.chan n).vol = 0 ∧ (d.chan n).mute = false ∧ (d.chan n).zcto = 10
        ∧ (d.chan n).loop.pmode = 1)
    ∧ (∀ n, (d.fn n).stallTo = 1000 ∧ (d.fn n).trnEn = false ∧ (d.mbx n).tmoMs = 10 ∧ (d.mbx n).upbuf = 0)
    ∧ (∀ n, (d.ring n).st = .disabled) ∧ (∀ n, (d.tag n).st = .free)

/-- Every command of the table completes in every state: none ends in a fault or a refusal. -/
def Obligations.EveryCommandAnswersNextState : Prop :=
  ∀ (i : Instr) (s : State), ∃ t, exec i s = .next t

/-- No command touches the queue of commands that wait; and every command outside the lock file, the register map, the
sideband port and the resets of a lock owner leaves locks and sideband window alone (R102, R105, R107, R370). -/
def Obligations.OnlyLockPathsTouchLocks : Prop :=
  ∀ (i : Instr) (s t : State), exec i s = .next t →
    t.pending = s.pending ∧ (i.reachesLocks = false → s.outerKept t)

/-- Reset is sound: the sideband window is in canonical form and no lock is held. -/
def Obligations.ResetIsSound : Prop :=
State.Sound State.reset

/-- Every step keeps the state sound: the sideband window stays in canonical form, no lock is ever owned by anything but
one of the five masters, and the lock error counts stay within their fields, whatever the command and the state. -/
def Obligations.EveryStepKeepsSoundness : Prop :=
  ∀ s t : State, s.Sound → step s = .next t → t.Sound

/-- A frozen device stands still (R360): apart from the two-wire port, the TAP, the Mordant window, the supplies and
resets, and the pins, no command changes anything. -/
def Obligations.FreezeStopsEverythingElse : Prop :=
  ∀ (i : Instr) (s : State), s.dev.fz.frozen = true → i.actsFrozen = false → exec i s = .next s


/-! ### Locks (R105–R108) -/

/-- An aligned read of LCK_n by a master that reaches the lock file acquires a free lock and returns 0; of a held lock,
the owner's own read included, it returns 0x8000_00nn with the owner nn and changes nothing; so of two masters that
read a free lock one after the other the first wins and the second reads the winner's ID. A write of a master's own
ID releases the lock it owns. A write of 0x01nn by PF1 with the present owner nn releases it too, LCK_ERR.FORCED
counts, and a LOCK_FORCED event with its Mordant record follows. Every other write, the same one from another path
included, is ignored and counted in LCK_ERR.IGNORED. -/
def Obligations.LockAccessesFollowTheirOwner : Prop :=
  (∀ (m : Master) (n : Nat) (s : State), n < 32 → s.dev.live = true → s.dev.reaches m = true →
      ∃ t, exec (.lockAcquireRead m n) s = .next t
        ∧ t = { s with locks := t.locks, dev := { s.dev with lastRead := t.dev.lastRead } }
        ∧ (s.locks.who n = 0 → t.dev.lastRead = [0, 0, 0, 0] ∧ t.locks.who n = masterId m
            ∧ (∀ k, k ≠ n → t.locks.who k = s.locks.who k) ∧ t.locks.ignored = s.locks.ignored ∧ t.locks.forced = s.locks.forced)
        ∧ (s.locks.who n ≠ 0 → t.dev.lastRead = le 4 (0x80000000 + s.locks.who n) ∧ t.locks = s.locks)
        ∧ ∀ m', s.dev.reaches m' = true → ∃ u, exec (.lockAcquireRead m' n) t = .next u
            ∧ u.locks = t.locks ∧ u.dev.lastRead = le 4 (0x80000000 + t.locks.who n))
  ∧ (∀ (m : Master) (n v : Nat) (s : State), n < 32 → v < 2 ^ 32 → s.dev.live = true → s.dev.reaches m = true →
      ∃ t, exec (.lockRelease m n v) s = .next t ∧ t.pending = s.pending ∧ t.win = s.win
        ∧ (∀ k, k ≠ n → t.locks.who k = s.locks.who k)
        ∧ (v = masterId m → s.locks.who n = masterId m → t.locks.who n = 0 ∧ t.dev = s.dev
            ∧ t.locks.ignored = s.locks.ignored ∧ t.locks.forced = s.locks.forced)
        ∧ (m = .pf1 → s.locks.who n ≠ 0 → v = 0x100 + s.locks.who n → t.locks.who n = 0
            ∧ t.locks.forced = satInc 65535 s.locks.forced ∧ t.locks.ignored = s.locks.ignored
            ∧ t.dev = s.dev.alarm 0x010C n (s.locks.who n))
        ∧ (¬(v = masterId m ∧ s.locks.who n = masterId m) → ¬(m = .pf1 ∧ s.locks.who n ≠ 0 ∧ v = 0x100 + s.locks.who n) →
            t.locks.who n = s.locks.who n ∧ t.locks.ignored = satInc 65535 s.locks.ignored
            ∧ t.locks.forced = s.locks.forced ∧ t.dev = s.dev))

/-- PF1 releases a lock held by any master by writing 0x01nn with the present owner nn: the lock is free, LCK_ERR.FORCED
counts, and a LOCK_FORCED event and a Mordant record follow. With another nn, for a free lock, or from any other
path the write is ignored and counted as IGNORED. -/
def Obligations.ForcedReleaseIsForPf1 : Prop :=
  ∀ (m : Master) (n nn : Nat) (s : State), n < 32 → nn < 256 → s.dev.live = true → s.dev.reaches m = true →
    ∃ t, exec (.lockForce m n nn) s = .next t ∧ t.pending = s.pending ∧ t.win = s.win
      ∧ (m = .pf1 → nn = s.locks.who n → nn ≠ 0 →
          t.locks.who n = 0 ∧ (∀ k, k ≠ n → t.locks.who k = s.locks.who k)
          ∧ t.locks.forced = satInc 65535 s.locks.forced ∧ t.locks.ignored = s.locks.ignored
          ∧ t.dev = s.dev.alarm 0x010C n nn)
      ∧ ((m ≠ .pf1 ∨ nn ≠ s.locks.who n ∨ nn = 0) → (∀ k, t.locks.who k = s.locks.who k)
          ∧ t.locks.ignored = satInc 65535 s.locks.ignored ∧ t.locks.forced = s.locks.forced ∧ t.dev = s.dev)


/-! ### Mailboxes (R87–R103) -/

/-- MBX_DB acts only on a whole write (R89): any other is discarded and counted in MBX_IGNORED. A whole write with a
free slot queues one notice with the pointer, length (0 means 65,536) and tag written (R90); without a slot it is
dropped, OVF rises and the overflow count goes on; what the mailbox file's own check refuses is acknowledged at once
with the code; while the receiver is down DN_TMO rises with RECEIVER_DOWN, and an acknowledgement says that it is
late (R94). Other channels keep everything. Ramcen takes the oldest notice of a channel (R92). A sideband message is
copied from the window and its notice ACCEPTED at once with its tag taken, where the tag is its sender's and FREE
(R91, R92, R102); a host notice becomes TAKEN and the read of its message leaves, but for a bound CPL ring that is
not RUNNING, which gives NOT_PERMITTED, and a fenced owner, which gives BAD_POINTER. -/
def Obligations.MailboxNoticesAreQueuedAndTaken : Prop :=
  (∀ (p : Path) (ch v : Nat) (s : State), v < 2 ^ 64 → s.dev.onPath p = true → pathOwns p ch = true →
      let d := s.dev
      let m := d.mbx ch
      let side := isSide p
      let n : Notice := { side := side, ptr := v % 2 ^ 32, len := if bits v 47 32 = 0 then 65536 else bits v 47 32,
                          tag := bits v 63 48, st := .queued, since := d.sys.uptime, late := false }
      exec (.mbxDbWrite p ch false v) s
          = .next { s with dev := d.setPath (pathNo p) { d.path (pathNo p) with eMbx := satInc 255 (d.path (pathNo p)).eMbx } }
      ∧ ∃ e, exec (.mbxDbWrite p ch true v) s = .next { s with dev := e }
        ∧ (∀ c, c ≠ ch → e.mbx c = d.mbx c) ∧ Dev.signalled { d with mbxs := e.mbxs } e
        ∧ ((16 ≤ m.dnUsed ∨ side = true ∧ m.sideUsed = true) →
            (e.mbx ch).fifo = m.fifo ∧ ((e.mbx ch).port side).ovf = true ∧ (e.mbx ch).ovfCnt = satInc 65535 m.ovfCnt)
        ∧ (m.dnUsed < 16 → (side = true → m.sideUsed = false) →
            (m.hwCheck n = none → d.sys.ready = true → e = d.setMbx ch { m with fifo := m.fifo ++ [n] })
            ∧ (m.hwCheck n = none → d.sys.ready = false → (e.mbx ch).fifo.length = m.fifo.length + 1
                ∧ ((e.mbx ch).port side).tmo = true ∧ ((e.mbx ch).port side).tmoCode = 0x0203)
            ∧ (∀ code, m.hwCheck n = some code → (e.mbx ch).fifo.length = m.fifo.length
                ∧ ((e.mbx ch).port side).acks = (m.port side).acks ++ [{ tag := n.tag, code := code, late := !d.sys.ready }]
                ∧ (d.sys.ready = false → ((e.mbx ch).port side).tmo = true))))
  ∧ (∀ (ch : Nat) (n : Notice) (rest : List Notice) (s : State), s.dev.live = true → s.dev.sys.ready = true → ch < 64 →
      (s.dev.mbx ch).takenHead = none → (s.dev.mbx ch).fifo = n :: rest →
      let d := s.dev
      let m := d.mbx ch
      let bytes := (List.range n.len).map (fun k => Memory.read s.win (n.ptr * 64 + k))
      let h := hdrOf .sideband n.len (n.ptr * 64 + (n.len + 31) / 32 * 32) (bytesOf bytes)
      ∃ e, exec (.noticeTake ch) s = .next { s with dev := e }
        ∧ (∀ c, c ≠ ch → e.mbx c = d.mbx c)
        ∧ Dev.reported { d with mbxs := e.mbxs, fetched := e.fetched, tags := e.tags, accepts := e.accepts, tless := e.tless,
                                trn := e.trn } e
        ∧ (n.side = true → (e.mbx ch).fifo = rest
            ∧ (e.mbx ch).p1.acks = m.p1.acks ++ [{ tag := n.tag, code := 1, late := n.late }]
            ∧ (ownTag 4 h.tag = true → (d.tag h.tag).st = .free → (e.tag h.tag).st = .active ∧ (e.tag h.tag).hdr = some h
                ∧ e.fetched = d.fetched ++ [{ via := .sideband, len := n.len, reply := n.ptr * 64 + (n.len + 31) / 32 * 32,
                                              tag := some h.tag, bytes := bytes }]))
        ∧ (n.side = false → (∃ k, m.cpl = some k ∧ (d.ring k).st ≠ .running) → d.sys.recovery = false →
            (e.mbx ch).fifo = rest ∧ (e.mbx ch).p0.acks = m.p0.acks ++ [{ tag := n.tag, code := NOT_PERMITTED, late := n.late }]
            ∧ e.fetched = d.fetched)
        ∧ (n.side = false → (∀ k, m.cpl = some k → (d.ring k).st = .running) → (d.fn (mbxFn ch)).fenced = true →
            (e.mbx ch).fifo = rest ∧ (e.mbx ch).p0.acks = m.p0.acks ++ [{ tag := n.tag, code := BAD_POINTER, late := n.late }]
            ∧ e.fetched = d.fetched)
        ∧ (n.side = false → (∀ k, m.cpl = some k → (d.ring k).st = .running) → (d.fn (mbxFn ch)).fenced = false →
            d.readRoom (0x1200 + ch) = true → d.rangeFault (mbxFn ch) (n.ptr * 64) n.len false = none →
            e.mbx ch = { m with fifo := { n with st := .taken } :: rest } ∧ e.fetched = d.fetched
            ∧ e.trn.reads = d.trn.reads ++ [{ stream := 0x1200 + ch, iova := n.ptr * 64, len := n.len, pos := 0,
                                              since := d.sys.uptime, no := d.trn.readNo, taken := false, got := [] }]))


/-- A read of MBX_ACK returns the oldest acknowledgement of its port, zero without one, and removes it when byte 0 is
read (R88, R89); nothing else changes. DN_TMO of a port rises when one of its notices has waited for the channel
timeout, with TMO_CODE TIMEOUT unless it says RECEIVER_DOWN already (R94). Clearing it clears TMO_CODE too; while
the receiver is up and no notice of the port is past the timeout it stays clear (R88), and notices and
acknowledgements stay. -/
def Obligations.MailboxStatusReadsAndTimeouts : Prop :=
  (∀ (p : Path) (ch : Nat) (byte0 : Bool) (s : State), s.dev.onPath p = true → pathOwns p ch = true →
      let d := s.dev
      let m := d.mbx ch
      let q := m.port (isSide p)
      ∃ e, exec (.mbxAckRead p ch byte0) s = .next { s with dev := e }
        ∧ e = { d with lastRead := e.lastRead, mbxs := e.mbxs } ∧ (∀ c, c ≠ ch → e.mbx c = d.mbx c)
        ∧ (q.acks = [] → e.lastRead = [0, 0, 0, 0, 0, 0, 0, 0])
        ∧ (∀ a t, q.acks = a :: t → e.lastRead
            = le 8 (a.tag + a.code * 2 ^ 16 + 2 ^ 32 + t.length * 2 ^ 33 + b2n a.late * 2 ^ 37))
        ∧ e.mbx ch = (if byte0 then m.setPort (isSide p) { q with acks := q.acks.drop 1 } else m))
  ∧ ((∀ (ch : Nat) (side : Bool) (s : State), s.dev.live = true →
      (s.dev.mbx ch).fifo.any (fun n => n.side = side && (s.dev.mbx ch).overdue s.dev.sys.uptime n) = true →
      ∃ e, exec (.mailboxTimeout ch side) s = .next { s with dev := e }
        ∧ (∀ c, c ≠ ch → e.mbx c = s.dev.mbx c) ∧ Dev.signalled { s.dev with mbxs := e.mbxs } e
        ∧ ((e.mbx ch).port side).tmo = true
        ∧ ((e.mbx ch).port side).tmoCode
            = (if ((s.dev.mbx ch).port side).tmo && ((s.dev.mbx ch).port side).tmoCode = 0x0203 then 0x0203 else 0x0300)
        ∧ ((e.mbx ch).port side).acks = ((s.dev.mbx ch).port side).acks ∧ (e.mbx ch).fifo.length = (s.dev.mbx ch).fifo.length)
    ∧ ∀ (p : Path) (ch : Nat) (s : State), s.dev.onPath p = true → pathOwns p ch = true → s.dev.sys.ready = true →
      (∀ n ∈ (s.dev.mbx ch).fifo, n.side = isSide p → (s.dev.mbx ch).overdue s.dev.sys.uptime n = false) →
      let m := s.dev.mbx ch
      exec (.dnTmoClear p ch) s
        = .next { s with dev := s.dev.setMbx ch (m.setPort (isSide p) { m.port (isSide p) with tmo := false, tmoCode := 0 }) })

/-- Writing 1 to MBX_STAT.WDRAW acknowledges every QUEUED notice of that port with CANCELLED, at once; notices already
TAKEN, and those of the other port, stay for Ramcen (R95). -/
def Obligations.WithdrawCancelsQueuedNotices : Prop :=
  ∀ (p : Path) (ch : Nat) (s : State), s.dev.onPath p = true → pathOwns p ch = true →
    let d := s.dev
    let m := d.mbx ch
    let mine : Notice → Bool := fun n => n.side = isSide p && n.st = .queued
    ∃ e, exec (.wdraw p ch) s = .next { s with dev := e }
      ∧ (∀ c, c ≠ ch → e.mbx c = d.mbx c) ∧ Dev.signalled { d with mbxs := e.mbxs } e
      ∧ (e.mbx ch).fifo = m.fifo.filter (fun n => !mine n)
      ∧ ((e.mbx ch).port (isSide p)).acks = (m.port (isSide p)).acks
          ++ (m.fifo.filter mine).map (fun n => { tag := n.tag, code := CANCELLED, late := n.late })

/-- Upstream (R96, R97, R161): with a configured buffer, an open path and a free slot the oldest waiting message is
written to the lowest free slot of 256 bytes, its notice gets the next device tag, and it leaves the queue; without
buffer, link or open path it is refused and counted; a repeat after BUSY waits for its 100 ms. The matching tag
acknowledges the notice in MBX_UP: OK ends it, BUSY has it posted once more 100 ms later, another code is counted; a
tag that does not match is ignored and counted. A notice longer pending than the channel timeout is counted once as
TIMEOUT and stays. -/
def Obligations.UpstreamNoticesArePostedAndAcknowledged : Prop :=
  (∀ (ch at_ : Nat) (w : UpMsg) (rest : List (Nat × UpMsg)) (s : State), s.dev.live = true → s.dev.sys.ready = true →
    (s.dev.mbx ch).repost = (at_, w) :: rest → (w.again = true → at_ ≤ s.dev.sys.uptime) →
    let d := s.dev
    let m := d.mbx ch
    let row : Instr := if w.again then .upstreamRepost ch else .upstreamPost ch
    ∃ e, exec row s = .next { s with dev := e } ∧ (∀ c, c ≠ ch → e.mbx c = d.mbx c)
      ∧ Dev.signalled { d with mbxs := e.mbxs, out := e.out } e
      ∧ ((m.upbuf = 0 ∨ (d.fn (mbxFn ch)).fenced = true ∨ d.link.up = false) →
          e = d.setMbx ch { m with repost := rest, upRefused := satInc (2 ^ 32 - 1) m.upRefused })
      ∧ (m.upbuf ≠ 0 → (d.fn (mbxFn ch)).fenced = false → d.link.up = true → m.up.length < 16 →
          e.mbx ch = { m with repost := rest, upTag := (m.upTag + 1) % 65536,
                              up := m.up ++ [{ w with slot := m.freeSlot, tag := m.upTag, since := d.sys.uptime,
                                                      counted := false, body := w.body.take 224 }] }
          ∧ ∃ b a, Out.write (mbxFn ch) (m.upbuf + 256 * m.freeSlot) b a
              (le 2 w.type ++ le 2 0 ++ le 4 d.sys.epoch ++ le 8 d.cmLt ++ le 16 0 ++ w.body.take 224) ∈ e.out))
  ∧ (∀ (p : Path) (ch tag code : Nat) (u : UpMsg) (rest : List UpMsg) (s : State), s.dev.onPath p = true →
      pathOwns p ch = true → p ≠ .tw → tag < 65536 → code < 65536 → (s.dev.mbx ch).up = u :: rest →
      let d := s.dev
      let m := d.mbx ch
      ∃ e, exec (.mbxUpack p ch tag code) s = .next { s with dev := e }
        ∧ (tag ≠ u.tag → e = d.setPath (pathNo p) { d.path (pathNo p) with eMbx := satInc 255 (d.path (pathNo p)).eMbx })
        ∧ (tag = u.tag → e = d.setMbx ch (e.mbx ch) ∧ (e.mbx ch).up.map (·.tag) = rest.map (·.tag)
            ∧ (code = 0 → (e.mbx ch).repost = m.repost ∧ (e.mbx ch).upOther = m.upOther)
            ∧ (code = BUSY → u.again = false →
                (e.mbx ch).repost = m.repost ++ [(d.sys.uptime + 100000, { u with again := true })])
            ∧ (code ≠ 0 → (code ≠ BUSY ∨ u.again = true) → (e.mbx ch).upOther = satInc (2 ^ 32 - 1) m.upOther
                ∧ (e.mbx ch).repost = m.repost)))
  ∧ ∀ (ch : Nat) (u : UpMsg) (rest : List UpMsg) (s : State), s.dev.live = true → (s.dev.mbx ch).up = u :: rest →
      u.since + (s.dev.mbx ch).tmoMs * 1000 < s.dev.sys.uptime → u.counted = false →
      exec (.upstreamTimeout ch) s = .next { s with dev := s.dev.setMbx ch { s.dev.mbx ch with
        up := { u with counted := true } :: rest, upTmo := satInc (2 ^ 32 - 1) (s.dev.mbx ch).upTmo } }


/-! ### Rings (R68–R86) -/

/-- A doorbell is accepted exactly when the ring is owned by the writing function, is RUNNING or STALLED, and the new
index lies within what R72 allows; it moves the host's index, TAIL of a host-produced ring and HEAD of a
device-produced one, and re-arms the watermark. Any other doorbell, and a 32-bit write to the upper half of a slot,
is ignored and counted. On a CPL ring the tags whose records the new index passes are FREE again (R114); no other
ring and no other tag changes. -/
def Obligations.DoorbellMovesHostIndex : Prop :=
  ∀ (fn k idx : Nat) (s : State), s.dev.live = true → s.dev.link.up = true → fn < 2 → k < 4096 → idx < 2 ^ 32 →
    let d := s.dev
    let r := d.ring k
    let m := 2 ^ 32
    let ok : Prop := r.owner = fn ∧ (r.st = .running ∨ r.st = .stalled)
      ∧ (r.hostProduced = true → (idx + m - r.head) % m ≤ r.size ∧ (idx + m - r.tail) % m ≤ (idx + m - r.head) % m)
      ∧ (r.hostProduced = false → (idx + m - r.head) % m ≤ (r.tail + m - r.head) % m)
    let ignored : Dev := d.setPath fn { d.path fn with eDb := satInc 255 (d.path fn).eDb }
    exec (.doorbell fn k idx true) s = .next { s with dev := ignored }
    ∧ (¬ok → exec (.doorbell fn k idx false) s = .next { s with dev := ignored })
    ∧ (ok → ∃ e, exec (.doorbell fn k idx false) s = .next { s with dev := e }
        ∧ e = { d with rings := e.rings, tags := e.tags } ∧ (∀ j, j ≠ k → e.ring j = d.ring j)
        ∧ e.ring k = (if r.hostProduced then { r with tail := idx, armed := true } else { r with head := idx, armed := true })
        ∧ (r.type ≠ 8 → e.tags = d.tags)
        ∧ (r.type = 8 → ∀ n, e.tag n =
            if (d.tag n).st = .written ∧ (d.tag n).ring = some k
                ∧ ((d.tag n).cplIdx + m - r.head) % m < (idx + m - r.head) % m
            then Tag.reset else d.tag n))

/-- A CMD ring's next entry and its descriptor are read when it is the ring's turn (R77, R118): the descriptor waits for
acceptance, HEAD passes the entry. An entry that is malformed puts the ring into ERROR (R77, R79), as does a read
that has failed twice (R63). The drain of a host-produced ring ends (R79, R83): the ring is DISABLED with its credit
returned, and RING_DESTROY completes with OK, RESULT the entries that the device did not consume and, from bit 32,
the requests that ended by timeout. -/
def Obligations.CommandRingsFetchFailAndDrain : Prop :=
  (∀ (k : Nat) (eb db : List Byte) (s : State), s.dev.live = true → s.dev.sys.ready = true → s.dev.sys.recovery = false →
      s.dev.cmdWork k = true → s.dev.cmdTurn k = true → (s.dev.ring k).st = .running → k < 4096 →
      s.dev.rangeFault (s.dev.ring k).owner ((s.dev.ring k).slotAddr (s.dev.ring k).head) 16 false = none →
      s.dev.lookFault (s.dev.ring k).owner (s.dev.ring k).idxAddr true = none →
      let d := s.dev
      let iova := fld (bytesOf eb) 0 8
      let good : Prop := iova % 64 = 0 ∧ iova < 2 ^ 38 ∧ fld (bytesOf eb) 8 8 = 0
      (good → d.rangeFault (d.ring k).owner iova 64 false = none →
        ∀ x y, ∃ e, exec (.cmdEntryFetch k (.data eb) x (.data db) y) s = .next { s with dev := e }
          ∧ (e.ring k).head = ((d.ring k).head + 1) % 2 ^ 32 ∧ (e.ring k).st = .running ∧ e.tags = d.tags ∧ e.cmdLast = k
          ∧ e.fetched = d.fetched ++ [{ via := .ring k, len := 64, reply := 0, tag := none, bytes := db.take 64 }])
      ∧ (¬good → ∀ x y z, ∃ e, exec (.cmdEntryFetch k (.data eb) x y z) s = .next { s with dev := e }
          ∧ (e.ring k).st = .error ∧ (e.ring k).err = 4 ∧ e.fetched = d.fetched)
      ∧ ∀ a b x y, ∃ e, exec (.cmdEntryFetch k (.cplError a) (.cplError b) x y) s = .next { s with dev := e }
          ∧ (e.ring k).st = .error ∧ (e.ring k).err = 5 ∧ e.fetched = d.fetched)
  ∧ (∀ (k tag : Nat) (s : State), s.dev.live = true → s.dev.drained k = true → (s.dev.ring k).endTag = some tag →
      (s.dev.ring k).hostProduced = true → (s.dev.tag tag).st = .active → (s.dev.tag tag).drop = false →
      (s.dev.tag tag).outQ = [] → (s.dev.tag tag).rstatus = OK → (s.dev.ring k).timeouts < 2 ^ 32 → (s.dev.ring k).left < 2 ^ 32 →
      ∃ e, exec (.drainComplete k .own) s = .next { s with dev := e }
        ∧ (e.ring k).st = .disabled ∧ (e.ring k).rdCr = 0 ∧ (e.ring k).wrCr = 0 ∧ e.ended tag OK
        ∧ (e.tag tag).result = (s.dev.ring k).left + (s.dev.ring k).timeouts * 2 ^ 32)


/-- COMMAND_ACCEPT completes on the oldest fetched descriptor (R110, R115, R116, R134). From a CMD ring, its tag is
taken where it is its sender's and FREE, its payload is read where it has one, and once steps 1 to 5 of the checks
have passed the command that the bytes spell starts, or waits where it is ORDERED; a descriptor of a mailbox, whose
tag was taken with its notice, goes the same way with the payload behind it. A descriptor without payload has
exactly the effect of the command's row. -/
def Obligations.AcceptedDescriptorRunsItsCommand : Prop :=
  ∀ (c : Cmd) (rs : Nat) (raw : Raw) (rest : List Raw) (x : List Byte) (s : State),
    let d := s.dev
    let b := bytesOf raw.bytes
    let h := hdrOf raw.via raw.len raw.reply b
    let op := fld b 0 2
    let p := countAt op
    let e : Dev := { d with fetched := rest }
    let y := e.takeTag h op
    let spells : List Byte → Prop := fun body =>
      countOk op h.plen (fld (bytesOf body) p.1 p.2) = true ∧ cmdOf op (bytesOf body) = some (c, rs)
    let accepts : Dev → Prop := fun z => exec (.commandAccept (.data x)) s = .next { s with dev := (z.withCmd h.tag c rs).orderedGo }
    d.live = true → d.sys.ready = true → d.fetched = raw :: rest →
    (raw.tag = none → Via.inline raw.via = false → ownTag (d.senderOf h.via) h.tag = true → (d.tag h.tag).st = .free →
        y.draining h.via = none → y.early h op = none →
      (h.plen = 0 → spells [] → accepts y
        ∧ ∀ i, i.ramcen = some (h, c) → rs = 0 → op = Cmd.op c → countOk op h.plen (Cmd.count c) = true →
            d.arrives h.via = true → exec (.commandAccept (.data x)) s = exec i { s with dev := e })
      ∧ (h.plen ≠ 0 → y.streamFenced (0x1000 + h.tag) = false →
          y.rangeFault (y.streamDom (0x1000 + h.tag)) h.payload h.plen false = none → spells (x.take h.plen) →
          accepts (y.readOut (0x1000 + h.tag) h.payload h.plen)))
    ∧ (∀ t, raw.tag = some t → Via.inline raw.via = true → e.unread h = true → (e.tag h.tag).opcode = op →
        e.draining h.via = none → e.early h op = none → spells ((raw.bytes.drop 64).take h.plen) → accepts e)


/-- COMPLETION_WRITE delivers the record of a finished command (R78, R91, R114). A record for a CPL ring that can take
it is written at TAIL, TAIL moves on and the tag is WRITTEN with that index; for a CPL ring that cannot, the tag is
HELD and the ring counts it (R85). A direct reply goes to its host address, or for the sideband port into the
window, and the tag is FREE; so does the oldest record without a tag (R115). A command that is not DONE is left
alone. Other tags keep everything. The oldest record that is held for a ring is written once there is space (R18,
R81, R114): a completion of a CPL ring, an event of the function's EVT ring with FLAGS bit 1, a staged record of any
other device-produced ring. -/
def Obligations.RecordsLeaveInTheirOrder : Prop :=
  (∀ (n : Nat) (s : State), s.dev.live = true → s.dev.sys.ready = true →
      let d := s.dev
      let t := d.tag n
      let rec_ := cplBytes n t.status t.opcode t.flags t.lt t.result t.epoch
      (t.st ≠ .done → exec (.completionWrite (.tag n)) s = .next s)
      ∧ (t.st = .done → ∃ u, exec (.completionWrite (.tag n)) s = .next u ∧ u.pending = s.pending ∧ u.locks = s.locks
        ∧ (∀ m, m ≠ n → u.dev.tag m = d.tag m)
        ∧ (t.side = true → u.dev = d.setTag n Tag.reset
            ∧ ∀ a, a < 256 → Memory.read u.win a = if t.reply ≤ a ∧ a < t.reply + 32
                then BitVec.ofNat 8 ((rec_[a - t.reply]?).getD 0) else Memory.read s.win a)
        ∧ (t.side = false → u.win = s.win)
        ∧ (∀ k, t.side = false → t.ring = some k → d.cplReady k = true →
            d.putFault k [((d.ring k).slotAddr (d.ring k).tail, 32)] = none →
            (u.dev.tag n).st = .written ∧ (u.dev.tag n).cplIdx = (d.ring k).tail
            ∧ (u.dev.ring k).tail = ((d.ring k).tail + 1) % 2 ^ 32 ∧ (u.dev.ring k).head = (d.ring k).head
            ∧ ∃ b a, Out.write (d.ring k).owner ((d.ring k).slotAddr (d.ring k).tail) b a rec_ ∈ u.dev.out)
        ∧ (∀ k, t.side = false → t.ring = some k → d.cplReady k = false →
            u.dev = (d.setTag n { t with st := .held, heldRec := true }).updRing k
              (fun r => { r with cntB := satInc 65535 r.cntB }))
        ∧ (t.side = false → t.ring = none → d.stalled (0x1000 + n) = false →
            ((d.link.up = false ∨ (d.fn (fnOf t.sender)).fenced = true) → u.dev = d.setTag n Tag.reset)
            ∧ (d.link.up = true → (d.fn (fnOf t.sender)).fenced = false → d.rangeFault (fnOf t.sender) t.reply 32 true = none →
                u.dev.tag n = Tag.reset ∧ ∃ b a, Out.write (fnOf t.sender) t.reply b a rec_ ∈ u.dev.out))))
  ∧ (∀ (x : Tless) (rest : List Tless) (s : State), s.dev.live = true → s.dev.sys.ready = true → s.dev.tless = x :: rest →
      x.ring = none → x.side = false → (s.dev.fn x.fn).fenced = false → s.dev.link.up = true →
      ∃ e, exec (.completionWrite .tagless) s = .next { s with dev := e } ∧ e.tags = s.dev.tags ∧ e.rings = s.dev.rings
        ∧ e.tless = rest.map (fun z => if s.dev.tlessReady z = true then z else { z with heldRec := true })
        ∧ ∃ b a, Out.write x.fn x.reply b a (x.record s.dev.sys.epoch) ∈ e.out)
  ∧ (∀ (k : Nat) (s : State), s.dev.live = true → s.dev.sys.ready = true → s.dev.ringOpen k = true → s.dev.stalled k = false →
      let d := s.dev
      let r := d.ring k
      let clear : List (Nat × Nat) → Prop := fun l => d.putFault k l = none
      ∃ e, exec (.heldRecordWrite k) s = .next { s with dev := e }
        ∧ (r.type = 8 → r.room = true → clear [(r.slotAddr r.tail, 32)] → ∀ n rest, d.heldOf k = n :: rest →
            (e.tag n).st = .written ∧ (e.tag n).cplIdx = r.tail ∧ (e.ring k).tail = (r.tail + 1) % 2 ^ 32
            ∧ (∀ m, m ≠ n → e.tag m = d.tag m)
            ∧ ∃ b a, Out.write r.owner (r.slotAddr r.tail) b a ((d.tag n).record n) ∈ e.out)
        ∧ (r.type = 9 → r.room = true → clear [(r.slotAddr r.tail, 32)] → d.firstRing r.owner 9 = some k →
            ∀ v rest, (d.fn r.owner).held = v :: rest →
            (e.fn r.owner).held = rest ∧ (e.ring k).tail = (r.tail + 1) % 2 ^ 32
            ∧ ∃ b a, Out.write r.owner (r.slotAddr r.tail) b a ({ v with flags := v.flags ||| 2 } : Evt).bytes ∈ e.out)
        ∧ (r.type ≠ 8 → r.type ≠ 9 → r.hostProduced = false → ∀ b rest, r.staged = b :: rest → r.fits b = true →
            clear (r.recAt b) → (e.ring k).staged = rest
            ∧ (e.ring k).tail = (r.tail + r.pad (b.length / max 1 r.esize) + b.length / max 1 r.esize) % 2 ^ 32))


/-- A read of a SRC ring's entry ends while no earlier one is under way and the next one still is (R60, R73, R75): HEAD
passes the entry in every case, before the reads that are now due leave. A valid entry that is not past is staged
for the object that the ring names; an invalid one, or one whose block has been rendered, is discarded and counted;
a completion timeout leaves the entry absent. A due entry on a page that an ABORT has barred counts as absent: no
read leaves, and no fault record is written (R56). A completion for no read under way is discarded, with the AER
entry Unexpected Completion (R63). -/
def Obligations.SourceEntryIsStagedOrPassed : Prop :=
  (∀ (k iova len : Nat) (b : List Byte) (x : Rd) (rest : List Rd) (s : State), s.dev.live = true → s.dev.link.up = true →
    k < 4096 → (s.dev.ring k).st = .running → (s.dev.ring k).type = 1 → s.dev.trn.under k iova len = some x →
    s.dev.trn.readsOf k = x :: rest → (∀ y ∈ rest, y.no ≠ x.no) → (∀ y, rest.head? = some y → y.taken = false) →
    b.length = 160 →
    let d := s.dev
    let r := d.ring k
    let a := d.obj r.bind
    let v := bytesOf b
    let bad : Prop := fld v 0 8 % 32 ≠ 0 ∨ 3 < fld v 8 4 ∨ fld v 16 16 ≠ 0 ∨ ∃ p, a.lastSc = some p ∧ fld v 0 8 < p + 32
    let past : Prop := fld v 0 8 < (d.dom r.domain).nextBlk
    (∃ e : Dev, exec (.readCompletion k iova len .own (.data b)) s = .next { s with dev := e.fetch k }
      ∧ (e.ring k).head = (r.head + 1) % 2 ^ 32
      ∧ (bad → e.objs = d.objs ∧ (e.ring k).cntB = satInc 65535 r.cntB)
      ∧ (¬bad → past → (e.obj r.bind).staged = a.staged ∧ (e.obj r.bind).lastSc = some (fld v 0 8)
          ∧ (e.ring k).cntB = satInc 65535 r.cntB)
      ∧ (¬bad → ¬past → (e.obj r.bind).lastSc = some (fld v 0 8)
          ∧ (e.obj r.bind).staged = a.staged ++ [{ sc := fld v 0 8, flags := fld v 8 4, seq := fld v 12 4, samples := words v 32 32 }]))
    ∧ (d.timedOut x = true → ∃ e : Dev, exec (.completionTimeout k iova len) s = .next { s with dev := e.fetch k }
      ∧ (e.ring k).head = (r.head + 1) % 2 ^ 32 ∧ e.objs = d.objs))
  ∧ (∀ (st iova len : Nat) (r : ReadRes) (s : State), s.dev.live = true → s.dev.link.up = true → st ≤ 0x1300 →
    s.dev.trn.under st iova len = none → s.dev.streamFenced st = false →
    exec (.readCompletion st iova len .own r) s = .next { s with dev := s.dev.aerSet (s.dev.streamFn st) 16 })
  ∧ ∀ (k a len pos : Nat) (d : Dev), (d.ring k).type = 1 → d.ringOpen k = true → d.stalled k = false →
    (d.dom (d.ring k).domain).st ≠ .disabled → d.readRoom k = true → d.trn.readsOf k = [] →
    d.nextRead k = some (a, len, pos) → (d.ring k).barredAt a len = true →
    ((d.fetchOne k).ring k).head = ((d.ring k).head + 1) % 2 ^ 32 ∧ (d.fetchOne k).objs = d.objs
      ∧ (d.fetchOne k).out = d.out ∧ ∀ fn, ((d.fetchOne k).fn fn).fltSeq = (d.fn fn).fltSeq


/-- A scheduled command takes effect in the next block to be rendered when its effective sample lies there, and ends
with OK and the line-time of that block; before, nothing changes (R33, R34, R118, R119): shown for POLICY, a
block-granular command of the clock-master domain, while no scene stream runs and no other command is active. Its
dies take the two policies, and on a die at EXPERT level the fold temperature of R271 (R122, R158). -/
def Obligations.StampedEffectWaitsForItsBlock : Prop :=
  ∀ (n sc dies oc th : Nat) (t : Tag) (h : Hdr) (s : State), s.dev.live = true → s.dev.sys.ready = true → n < 512 →
    s.dev.tag n = t → t.st = .active → t.ph = .sched → t.hdr = some h → t.cmd = some (.policy dies oc th) →
    t.effs = [(s.dev.tb.master, sc)] → t.done = [] → t.waits = 0 → t.ctxs = [] → t.drop = false → t.lockWait = false →
    t.outQ = [] → t.rstatus = OK → s.dev.tb.master < 4 → s.dev.renders s.dev.tb.master = true →
    (∀ e ∈ s.dev.tags, e.1 ≠ n → e.2.st ≠ .active) → (∀ x, x < 4 → (s.dev.stream x).en = false ∧ (s.dev.stream x).shadowFor = none) →
    let d := s.dev
    let m := d.dom (d.clk d.tb.master)
    let b := (d.dom d.tb.master).nextBlk
    (b < m.ceilBlk sc → exec (.stampedEffect n) s = .next s)
    ∧ (m.ceilBlk sc ≤ b → ∃ e, exec (.stampedEffect n) s = .next { s with dev := e } ∧ e.ended n OK
        ∧ ((h.atLt = false ∨ h.domain = d.tb.master) → (e.tag n).lt = d.ltOfSc d.tb.master b)
        ∧ d.otherTags e n ∧ e = { d with tags := e.tags, dies := e.dies, chans := e.chans, dones := d.dones + 1 }
        ∧ ((∀ k, (d.die k).expert = false) → e.chans = d.chans)
        ∧ ∀ k, e.die k = if k < 6 ∧ bit dies k = true then
            { d.die k with oc := oc, th := th, tfold := if (d.die k).expert then Die.reset.tfold else (d.die k).tfold,
                           expert := false }
          else d.die k)



/-! ### Translation (R50–R58) -/

/-- A translation fault of a ring's stream stalls it (R53): the ring is STALLED, the stall waits with the time it began,
the cause TRN_STALL is set, and no ring but it and a FLT ring changes its state; where the function has no RUNNING
FLT ring one record is made (R57). A page barred for the ring causes nothing (R56). Where the entries translate,
nothing faults and the translation is cached. TRN_RESUME repeats the translation of a stalled stream of the function
(R55): when it now succeeds the ring runs on, when it faults again it stays stalled with another record; a stream
that is not stalled, or is another function's, counts as ignored. -/
def Obligations.StalledStreamsAreResumed : Prop :=
  (∀ (k iova len : Nat) (write : Bool) (entries : List Nat) (s : State), s.dev.live = true → s.dev.link.up = true →
      k < 0x1000 → (s.dev.ring k).st = .running → s.dev.stalled k = false → s.dev.streamFenced k = false →
      ((s.dev.ring k).barredAt iova len = true → exec (.translationFault k iova write len entries) s = .next s) ∧
      ((s.dev.ring k).barredAt iova len = false →
      let d := s.dev
      let fn := (d.ring k).owner
      ∃ e, exec (.translationFault k iova write len entries) s = .next { s with dev := e }
        ∧ (∀ c l w, d.translate fn iova write entries = .fault c l w →
            (e.ring k).st = .stalled ∧ (∀ j, j ≠ k → (d.ring j).type ≠ 11 → (e.ring j).st = (d.ring j).st)
            ∧ ({ stream := k, fn := fn, dom := fn, iova := iova, len := len, write := write, since := d.sys.uptime } : Stall)
                ∈ e.trn.stalls
            ∧ (d.firstRing fn 11 = none → (e.fn fn).fltSeq = ((d.fn fn).fltSeq + 1) % 65536)
            ∧ bit (e.fn fn).cause 5 = true ∧ e.tags = d.tags ∧ e.mbxs = d.mbxs)
        ∧ (∀ x l, d.translate fn iova write entries = .hit x l → e = { d with trn := e.trn, out := e.out, link := e.link }
            ∧ e.trn.stalls = d.trn.stalls ∧ (e.trn.find fn iova).isSome = true)))
  ∧ (∀ (fn k : Nat) (entries : List Nat) (s : State), s.dev.live = true → s.dev.link.up = true → fn < 2 → k < 0x1000 →
      let d := s.dev
      (d.stallOf fn k = none → exec (.resume fn k entries) s
          = .next { s with dev := d.setPath fn { d.path fn with eReg := satInc 255 (d.path fn).eReg } })
      ∧ ∀ x, d.stallOf fn k = some x → (d.ring k).st = .stalled → ∃ e, exec (.resume fn k entries) s = .next { s with dev := e }
          ∧ ((∀ c l w, d.translate x.dom x.iova x.write entries ≠ .fault c l w) →
              (e.ring k).st = .running ∧ e.stalled k = false ∧ (∀ j, j ≠ k → e.ring j = d.ring j) ∧ e.tags = d.tags)
          ∧ (∀ c l w, d.translate x.dom x.iova x.write entries = .fault c l w →
              (e.ring k).st = .stalled ∧ e.stalled k = true
              ∧ (d.firstRing (d.ring k).owner 11 = none →
                  (e.fn (d.ring k).owner).fltSeq = ((d.fn (d.ring k).owner).fltSeq + 1) % 65536)))


/-- ABORT ends the stall of a stream of the function as R56 says: for a ring that the device reads the faulting page is
barred and the ring runs on; every other ring enters ERROR with code 1; a command ends with BAD_POINTER, and a
finished command's record is HELD. A stream that is not stalled, or another function's, counts as ignored (R55). The
device's own abort after STALL_TO does the same with code 2 and TIMEOUT (R55, R56), and leaves a record, shown where
the function has no RUNNING FLT ring (R57). -/
def Obligations.AbortEndsStallAsStreamKindSays : Prop :=
  (∀ (fn st : Nat) (x : Stall) (s : State), s.dev.live = true → s.dev.link.up = true → fn < 2 → st ≠ 0x1300 →
    s.dev.stallOf fn st = some x →
    let d := s.dev
    ∃ e, exec (.abort fn st) s = .next { s with dev := e } ∧ e.stalled st = false
      ∧ (st < 0x1000 → (d.ring st).st = .stalled → ((d.ring st).type = 1 ∨ (d.ring st).type = 2 ∨ (d.ring st).type = 3 ∨ (d.ring st).type = 5) →
          e.ring st = { d.ring st with st := .running, barred := x.iova / 4096 :: (d.ring st).barred })
      ∧ (st < 0x1000 → (d.ring st).st = .stalled → (d.ring st).type ≠ 1 → (d.ring st).type ≠ 2 → (d.ring st).type ≠ 3 →
          (d.ring st).type ≠ 5 → (e.ring st).st = .error ∧ (e.ring st).err = 1)
      ∧ (∀ n, st = 0x1000 + n → n < 512 → (d.tag n).st = .active → (d.tag n).drop = false → e.ended n BAD_POINTER)
      ∧ (∀ n, st = 0x1000 + n → n < 512 → (d.tag n).st = .done → e.tag n = { d.tag n with st := .held, heldRec := true }))
  ∧ (∀ (fn st : Nat) (s : State), s.dev.live = true → s.dev.link.up = true → fn < 2 → s.dev.stallOf fn st = none →
    exec (.abort fn st) s
      = .next { s with dev := s.dev.setPath fn { s.dev.path fn with eReg := satInc 255 (s.dev.path fn).eReg } })
  ∧ ∀ (st : Nat) (x : Stall) (s : State), s.dev.live = true → s.dev.trn.stalls.find? (fun e => e.stream = st) = some x →
    x.since + (s.dev.fn x.fn).stallUs ≤ s.dev.sys.uptime → st ≠ 0x1300 →
    let d := s.dev
    ∃ e, exec (.stallTimeout st) s = .next { s with dev := e } ∧ e.stalled st = false
      ∧ (st < 0x1000 → (d.ring st).st = .stalled → ((d.ring st).type = 1 ∨ (d.ring st).type = 2 ∨ (d.ring st).type = 3 ∨ (d.ring st).type = 5) →
          (e.ring st).st = .running ∧ (e.ring st).barred = x.iova / 4096 :: (d.ring st).barred
          ∧ (d.firstRing x.fn 11 = none → (e.fn x.fn).fltSeq = ((d.fn x.fn).fltSeq + 1) % 65536))
      ∧ (st < 0x1000 → (d.ring st).st = .stalled → (d.ring st).type = 7 → (e.ring st).st = .error ∧ (e.ring st).err = 2)
      ∧ (∀ n, st = 0x1000 + n → n < 512 → (d.tag n).st = .active → (d.tag n).drop = false → e.ended n TIMEOUT
          ∧ (d.firstRing x.fn 11 = none → (e.fn x.fn).fltSeq = ((d.fn x.fn).fltSeq + 1) % 65536))


/-- A write of TRN_INV queues one invalidation with its scope, sequence number and page, and from then on no cached
translation that it covers is left (R52): the function's whole domain, the 4 KiB page or the 2 MiB region with SCOPE
0, 1 and 2, the internal domain with SCOPE 3; a ninth is discarded and counted (R58); SCOPE 3 is PF1's alone and
ignored from PF0. When every read issued before it that it covers has ended the invalidation is complete: its
sequence number shows in TRN_INV_DONE, no cached translation that it covers is left, and no page it covers is barred
for the function's rings (R52, R56). TRN_ROOT takes a new root with a write of its high word or of the whole
register, the low word written before it being held until then (R45, R58), and that drops every cached translation
of the domain (R52); TRN_IROOT is PF1's alone. Writing 1 to FENCED lifts the fence of the function's domain, in
TRN_ICTRL that of the internal domain (R58). -/
def Obligations.InvalidationsAndRootsDropTranslations : Prop :=
  (∀ (fn seq iova : Nat) (s : State), s.dev.live = true → s.dev.link.up = true → fn < 2 → seq < 256 →
      (s.dev.fn fn).invQ.length < 8 →
      let d := s.dev
      let f := d.fn fn
      let page := iova / 4096 % 2 ^ 26
      let queues : Instr → Nat → Nat → (TlbE → Prop) → Prop := fun i scope pg keeps => ∃ e, exec i s = .next { s with dev := e }
        ∧ e = { d with fns := e.fns, trn := e.trn, rings := e.rings }
        ∧ e.fn fn = { f with invQ := f.invQ ++ [{ scope := scope, seq := seq, page := pg, upto := d.trn.readNo }] }
        ∧ (∀ g, g ≠ fn → e.fn g = d.fn g) ∧ e.trn.stalls = d.trn.stalls ∧ e.trn.reads = d.trn.reads
        ∧ (∀ c ∈ e.trn.tlb, c ∈ d.trn.tlb ∧ keeps c)
      queues (.invalidateDomain fn seq) 0 0 (fun c => c.dom ≠ fn)
      ∧ queues (.invalidatePage fn seq iova) 1 page (fun c => c.dom = fn → ¬(c.base ≤ page * 4096 ∧ page * 4096 < c.base + c.size))
      ∧ queues (.invalidateRegion fn seq iova) 2 page (fun c => c.dom = fn →
          c.base + c.size ≤ page * 4096 / 2097152 * 2097152 ∨ page * 4096 / 2097152 * 2097152 + 2097152 ≤ c.base)
      ∧ (fn = 1 → queues (.invalidateInternal fn seq) 3 0 (fun c => c.dom ≠ 2)))
  ∧ (∀ (fn seq iova : Nat) (s : State), s.dev.live = true → s.dev.link.up = true → fn < 2 → 8 ≤ (s.dev.fn fn).invQ.length →
      let full : State := { s with dev := s.dev.setPath fn { s.dev.path fn with eReg := satInc 255 (s.dev.path fn).eReg } }
      exec (.invalidateDomain fn seq) s = .next full ∧ exec (.invalidatePage fn seq iova) s = .next full
      ∧ exec (.invalidateRegion fn seq iova) s = .next full ∧ (fn = 1 → exec (.invalidateInternal fn seq) s = .next full))
  ∧ (∀ (seq : Nat) (s : State), exec (.invalidateInternal 0 seq) s = .next s)
  ∧ (∀ (fn : Nat) (i : Inv) (rest : List Inv) (s : State), s.dev.live = true → (s.dev.fn fn).invQ = i :: rest →
      s.dev.invWaits fn i = false →
      let d := s.dev
      ∃ e, exec (.invalidationDone fn) s = .next { s with dev := e }
        ∧ e = { d with fns := e.fns, trn := e.trn, rings := e.rings }
        ∧ e.fn fn = { d.fn fn with invQ := rest, invDone := i.seq } ∧ (∀ g, g ≠ fn → e.fn g = d.fn g)
        ∧ e.trn.stalls = d.trn.stalls ∧ (∀ c ∈ e.trn.tlb, c ∈ d.trn.tlb ∧ i.covers fn c.dom c.base c.size = false)
        ∧ (∀ k, (d.ring k).owner = fn → ∀ pg ∈ (e.ring k).barred, i.covers fn fn (pg * 4096) 4096 = false)
        ∧ (∀ k, (d.ring k).owner ≠ fn → e.ring k = d.ring k))
  ∧ ((∀ (fn v : Nat) (s : State), s.dev.live = true → s.dev.link.up = true → fn < 2 →
      let d := s.dev
      exec (.trnRootWrite fn false 0 v) s = .next { s with dev := d.setFn fn { d.fn fn with rootLow := some (v % 2 ^ 32) } }
      ∧ (∃ e, exec (.trnRootWrite fn false 2 v) s = .next { s with dev := e } ∧ e = { d with fns := e.fns, trn := e.trn }
          ∧ e.fn fn = { d.fn fn with root := bits v 51 12, rootLow := none } ∧ (∀ g, g ≠ fn → e.fn g = d.fn g)
          ∧ (∀ c ∈ e.trn.tlb, c.dom ≠ fn) ∧ (∀ c ∈ d.trn.tlb, c.dom ≠ fn → c ∈ e.trn.tlb) ∧ e.trn.stalls = d.trn.stalls)
      ∧ (∀ low, (d.fn fn).rootLow = some low → ∃ e, exec (.trnRootWrite fn false 1 v) s = .next { s with dev := e }
          ∧ e.fn fn = { d.fn fn with root := bits (low + v % 2 ^ 32 * 2 ^ 32) 51 12, rootLow := none }
          ∧ (∀ c ∈ e.trn.tlb, c.dom ≠ fn))
      ∧ exec (.trnRootWrite 0 true 2 v) s = .next s
      ∧ (∃ e, exec (.trnRootWrite 1 true 2 v) s = .next { s with dev := e }
          ∧ e.fn 1 = { d.fn 1 with iroot := bits v 51 12, irootLow := none } ∧ (∀ c ∈ e.trn.tlb, c.dom ≠ 2)))
    ∧ ∀ (fn : Nat) (s : State), s.dev.live = true → s.dev.link.up = true → fn < 2 →
      exec (.fenceLift fn false) s = .next { s with dev := s.dev.setFn fn { s.dev.fn fn with fenced := false } }
      ∧ exec (.fenceLift 1 true) s = .next { s with dev := s.dev.setFn 1 { s.dev.fn 1 with ifenced := false } })



/-! ### Link and functions (R42–R49, R64–R66, R408) -/

/-- A function-level reset (R65, R84, R101, R107): its domain is FENCED, and with PF1 the internal domain; its other
registers, interrupt causes and MSI-X state are at their reset values, its held events stay; its rings that were not
DISABLED are FENCED; it holds no lock and no stall; its mailbox channels keep only the sideband port's notices. The
other function's settings and rings, the locks of other masters, the domains and the channels go on; objects keep
all but what they have in staging and the end of their source. When the link goes down the device acts as if both
functions had a function-level reset at once (R66): the link is down, both domains and the internal one are FENCED,
every ring that was not DISABLED is FENCED, no lock is held by PF0 or PF1, the processor's state (its EPOCH too),
channels and ports stay. -/
def Obligations.FunctionAndLinkResetsReturnState : Prop :=
  (∀ (fn : Nat) (s : State), s.dev.live = true → s.dev.link.up = true → fn < 2 →
      ∃ t, exec (.functionLevelReset fn) s = .next t ∧ t.pending = s.pending ∧ t.win = s.win
        ∧ (∀ n, n < 32 → t.locks.who n = if s.locks.who n = fn + 2 then 0 else s.locks.who n)
        ∧ Fn.settingsKept { Fn.reset with fenced := true, ifenced := decide (fn = 1) } (t.dev.fn fn)
        ∧ (t.dev.fn fn).causes = 0 ∧ (t.dev.fn fn).pba = 0 ∧ (∃ l, (t.dev.fn fn).held = (s.dev.fn fn).held ++ l)
        ∧ (∀ g, g ≠ fn → Fn.settingsKept (s.dev.fn g) (t.dev.fn g))
        ∧ (∀ k, (s.dev.ring k).owner = fn → (s.dev.ring k).st ≠ .disabled → (t.dev.ring k).st = .fenced)
        ∧ (∀ k, (s.dev.ring k).owner ≠ fn → Ring.settingsKept (s.dev.ring k) (t.dev.ring k))
        ∧ (∀ x ∈ t.dev.trn.stalls, x.fn ≠ fn)
        ∧ (∀ ch, ch < 64 → mbxFn ch = fn → (t.dev.mbx ch).up = [] ∧ (t.dev.mbx ch).upbuf = 0 ∧ (t.dev.mbx ch).cpl = none
            ∧ (t.dev.mbx ch).tmoMs = 10 ∧ (∀ n ∈ (t.dev.mbx ch).fifo, n.side = true))
        ∧ t.dev.chans = s.dev.chans ∧ t.dev.doms = s.dev.doms
        ∧ ∀ o, t.dev.obj o = { s.dev.obj o with staged := (t.dev.obj o).staged, wait := (t.dev.obj o).wait,
                                                ending := (t.dev.obj o).ending })
  ∧ (∀ (cause : Nat) (s : State), s.dev.live = true → s.dev.link.up = true →
      ∃ t, exec (.linkDown cause) s = .next t ∧ t.pending = s.pending ∧ t.win = s.win ∧ t.dev.link.up = false
        ∧ (∀ n, n < 32 → t.locks.who n = if s.locks.who n = 2 ∨ s.locks.who n = 3 then 0 else s.locks.who n)
        ∧ (∀ g, g < 2 → (t.dev.fn g).fenced = true ∧ (t.dev.fn g).msixEn = false ∧ (t.dev.fn g).mask = 0)
        ∧ (t.dev.fn 1).ifenced = true
        ∧ (∀ k, (s.dev.ring k).owner < 2 → (s.dev.ring k).st ≠ .disabled → (t.dev.ring k).st = .fenced)
        ∧ t.dev.sys = s.dev.sys ∧ t.dev.chans = s.dev.chans ∧ t.dev.ports = s.dev.ports)


/-- A trained link stands at its speed and width, out of L1, and the device reports its latency tolerance, 20 µs while
an ISOCHRONOUS ring runs, else 1 ms (R42, R47); when the usable rate is below 1.25 times a reservation, the link is
short and LINK_SHORT is raised (R49). The device enters L1 once 10 µs have passed without a request and none is
outstanding, but never while an ISOCHRONOUS ring runs (R47). Unmasking a vector whose message is pending sends it
once and clears the pending bit; nothing is sent while the function is masked (R408). A write of Message Control
that enables MSI-X and lifts the function's mask does just that where nothing is pending. -/
def Obligations.LinkTrainingAndUnmaskingSignal : Prop :=
  ((∀ (speed width : Nat) (s : State), s.dev.live = true → 1 ≤ speed → speed ≤ 4 → 1 ≤ width → width ≤ 2 →
      let d := s.dev
      let u := usableRate speed width
      let us := if d.isoRuns then 20 else 1000
      let short : Bool := decide (4 * u < 5 * max d.link.rdRes d.link.wrRes)
      let up : Dev := { d with link := { d.link with up := true, speed := speed, width := width, short := short, l1 := false,
                                                     ltr := us, lastReq := d.sys.uptime },
                               out := .ltr us :: d.out }
      exec (.linkTrained speed width) s = .next { s with dev := if short then up.alarm 0x0103 0 u else up })
    ∧ ∀ s : State, s.dev.live = true → s.dev.link.up = true →
      (s.dev.isoRuns = false → (∀ x ∈ s.dev.trn.reads, x.taken = true) → s.dev.link.lastReq + 10 ≤ s.dev.sys.uptime →
        exec .aspmL1Entry s = .next { s with dev := { s.dev with link := { s.dev.link with l1 := true } } })
      ∧ (s.dev.isoRuns = true → exec .aspmL1Entry s = .next s))
  ∧ ∀ (fn : Nat) (s : State), s.dev.live = true → s.dev.link.up = true → fn < 2 →
      let d := s.dev
      (∀ v, v < 128 → (d.fn fn).msixEn = true → (d.fn fn).pba = 2 ^ v →
        ∃ e, exec (.msixUnmask fn (some v)) s = .next { s with dev := e }
          ∧ (e.fn fn).msixWord (4 * v + 3) = 0
          ∧ ((d.fn fn).fmask = false → (e.fn fn).pba = 0 ∧ e.out = .msix fn v :: d.out)
          ∧ ((d.fn fn).fmask = true → (e.fn fn).pba = 2 ^ v ∧ e.out = d.out))
      ∧ ((d.fn fn).pba = 0 →
          exec (.msixUnmask fn none) s = .next { s with dev := d.setFn fn { d.fn fn with msixEn := true, fmask := false } })


/-- An uncorrectable SRAM error leaves a translation record and raises SRAM_UE with the store and its word (R57, R64),
and does to the data what R64 says: an object's history word reads as the sample before it; contexts that use a
shape ramp to silence; a context parks with CTX_PARKED_FAULT; bytes staged for a command's result leave with EP set;
a ring that runs enters ERROR with code 3, one that drains is DISABLED; the processor's memory asks for a restart of
cause 3. A corrected error is counted (R10). -/
def Obligations.SramErrorsActOnTheirStore : Prop :=
  (∀ (word iova : Nat) (s : State), s.dev.live = true →
    let d := s.dev
    let y : Nat → Nat → Dev := fun store st =>
      (d.fltRecord (d.streamFn st) 5 store st (d.streamDom st) 0 iova word).alarm 0x010D store word
    (∀ o, o < 256 → (d.obj o).src ≠ 0 →
      ∃ e i, exec (.sramUe 1 o word iova) s = .next { s with dev := e } ∧ i < 2048
        ∧ e.obj o = { d.obj o with bad := 6144 - i, line := (d.obj o).line.set i (((d.obj o).line[i + 1]?).getD 0) }
        ∧ ∀ p, p ≠ o → e.obj p = d.obj p)
    ∧ (∀ k, k < 1024 →
      ∃ e, exec (.sramUe 2 k word iova) s = .next { s with dev := e } ∧ (e.shape k).bad = true
        ∧ (∀ c, (d.ctx c).shape = some k → (e.ctx c).fade = !(d.ctx c).parked) ∧ e.objs = d.objs ∧ e.chans = d.chans)
    ∧ (∀ c, c < 12288 →
      let x := d.ctx c
      exec (.sramUe 3 c word iova) s = .next { s with dev :=
        ((y 3 0x1300).setCtx c { x with fault := true, fade := !x.parked }).raiseIn (d.obj (c / 48)).dom 0x0306 c 3 0 })
    ∧ (∀ n, n < 512 → (d.tag n).cmd.isSome = true →
      ∃ e, exec (.sramUe 4 (0x1000 + n) word iova) s = .next { s with dev := e } ∧ e.epAt (0x1000 + n) iova = true
        ∧ e.objs = d.objs ∧ e.chans = d.chans ∧ e.tags = d.tags)
    ∧ (∀ k, k < 4096 →
      ((d.ring k).st = .running ∨ (d.ring k).st = .stalled →
        exec (.sramUe 5 k word iova) s = .next { s with dev := (y 5 k).ringError k 3 }
          ∧ (((y 5 k).ringError k 3).ring k).st = .error ∧ (((y 5 k).ringError k 3).ring k).err = 3)
      ∧ ((d.ring k).st = .draining →
        ∃ e, exec (.sramUe 5 k word iova) s = .next { s with dev := e } ∧ (e.ring k).st = .disabled))
    ∧ ∃ e, exec (.sramUe 6 0 word iova) s = .next { s with dev := e } ∧ Dev.reported d { e with restartReq := d.restartReq, sys := d.sys }
        ∧ e.restartReq = some 3 ∧ e.sys = { d.sys with ueWord := some word })
  ∧ ∀ (store : Nat) (s : State), s.dev.live = true → 1 ≤ store → store ≤ 6 →
    exec (.sramSingleError store) s
      = .next { s with dev := { s.dev with sbe := Tab.set s.dev.sbe store (satInc (2 ^ 32 - 1) (Tab.get 0 s.dev.sbe store)) } }



/-! ### Registers (R6, R45, R402–R408) -/

/-- A read over a path that is served answers the register and has the side effects R6 and R404 give it and no others:
the device ID reads 0x1F3B (R403); a 32-bit read of SYS_ERR returns the four counts of its path and clears them; a
misaligned 32-bit read answers zeros and changes nothing (R45), as does a read of BAR2 by PF0; configuration space
answers both functions' identity (R43). The latch of the system time registers (R404): on a path a 32-bit read of a
low word that the latch does not hold returns the live word and latches the other five; the next read of a latched
word returns what was latched, however much time has passed since, and marks it read; a high word that is not
latched is live and latches nothing. -/
def Obligations.RegisterReadsAnswerClearAndLatch : Prop :=
  (∀ (p : Path) (s : State), s.dev.serves p = true → s.dev.fz.frozen = false → s.dev.sys.por = false →
      let d := s.dev
      let r := d.path (pathNo p)
      let clear : PathR := { r with ePartial := 0, eDb := 0, eMbx := 0, eReg := 0 }
      let counts := le 4 (r.ePartial + 2 ^ 8 * r.eDb + 2 ^ 16 * r.eMbx + 2 ^ 24 * r.eReg)
      exec (.clearOnRead p ⟨.bar0, 0⟩ 4) s = .next { s with dev := { d with lastRead := le 4 0x1F3B } }
      ∧ exec (.clearOnRead p ⟨.bar0, 0x30⟩ 4) s = .next { s with dev := (d.setPath (pathNo p) clear).answer counts }
      ∧ (∀ off, off % 4 ≠ 0 → exec (.clearOnRead p ⟨.bar0, off⟩ 4) s = .next { s with dev := { d with lastRead := [0, 0, 0, 0] } })
      ∧ (p = .pf0 → ∀ off, exec (.clearOnRead p ⟨.bar2, off⟩ 4) s = .next { s with dev := { d with lastRead := [0, 0, 0, 0] } })
      ∧ (p ≠ .tw → exec (.clearOnRead p ⟨.ident, 0⟩ 4) s = .next { s with dev := { d with lastRead := [0x3B, 0x1F, 0x32, 0x48] } }))
  ∧ (∀ (p : Path) (k : Nat) (s : State), s.dev.serves p = true → k < 6 →
      ((s.dev.path (pathNo p)).latch[k]?).getD none = none →
      (k % 2 = 1 → exec (.sysTimeLatchRead p k) s = .next { s with dev := { s.dev with lastRead := le 4 (s.dev.timeWord k) } })
      ∧ (k % 2 = 0 →
        ∃ t, exec (.sysTimeLatchRead p k) s = .next t
          ∧ t.dev = { s.dev with lastRead := le 4 (s.dev.timeWord k), paths := t.dev.paths } ∧ s.outerKept t
          ∧ (∀ (j : Nat) (later : State), j < 6 → j ≠ k → later.dev.serves p = true →
              later.dev.path (pathNo p) = t.dev.path (pathNo p) →
              ∃ u, exec (.sysTimeLatchRead p j) later = .next u ∧ u.dev.lastRead = le 4 (s.dev.timeWord j)
                ∧ ((u.dev.path (pathNo p)).latch[j]?).getD none = none)))


/-- A register write over a path that arrives well (R45, R402, R405): an aligned 32-bit write sets the fields of its
register and nothing else: EN, STALL_TO and the fence of TRN_CTRL, the AREA of MDT_WCTL of the path; a narrow or
misaligned write of a function below 0x800 is discarded and counted as PARTIAL; a write of LCK_n is the lock write
of the path's master; a 32-bit write to a BAR2 slot of PF0 is a doorbell (R72, R409). A poisoned write of a function
is discarded, its AER bit set (R63). A write of ones clears bits of the interrupt cause block and of nothing else
(R407); after a write to it that leaves INT_CAUSE AND INT_MASK non-zero one message is sent on vector 0, else none
(R408). -/
def Obligations.RegisterWritesSetAndSignal : Prop :=
  (∀ (p : Path) (v : Nat) (s : State), s.dev.serves p = true → s.dev.live = true → v < 2 ^ 32 →
      let d := s.dev
      let f := d.fn (pathNo p)
      let r := d.path (pathNo p)
      let ctrl : Fn := { f with trnEn := bit v 0, fenced := f.fenced && !bit v 1, stallTo := bits v 31 16 }
      (p ≠ .tw → exec (.registerWrite p ⟨.bar0, 0x1100⟩ 4 v none) s = .next { s with dev := d.setFn (pathNo p) ctrl })
      ∧ exec (.registerWrite p ⟨.bar0, 0x4004⟩ 4 v none) s = .next { s with dev := d.setPath (pathNo p) { r with warea := v % 2 } }
      ∧ (p ≠ .tw → ∀ off n, off < 0x800 → (n = 1 ∨ n = 2 ∨ (n = 4 ∧ off % 4 ≠ 0)) →
          exec (.registerWrite p ⟨.bar0, off⟩ n v none) s
            = .next { s with dev := d.setPath (pathNo p) { r with ePartial := satInc 255 r.ePartial } })
      ∧ (∀ n m, n < 32 → m = (match p with | .pf0 => Master.pf0 | .pf1 => Master.pf1 | .tw => Master.sideband) →
          exec (.registerWrite p ⟨.bar0, (0x1000 + 4 * n)⟩ 4 v none) s = exec (.lockRelease m n v) s)
      ∧ (p = .pf0 → ∀ k, k < 4096 → exec (.registerWrite .pf0 ⟨.bar2, (8 * k)⟩ 4 v none) s = exec (.doorbell 0 k v false) s)
      ∧ (p ≠ .tw → ∀ off n, exec (.registerWrite p ⟨.bar0, off⟩ n v (some false)) s
          = .next { s with dev := d.setFn (pathNo p) { f with aer := f.aer ||| 2 ^ 12 } }))
  ∧ (∀ (fn v : Nat) (s : State), s.dev.live = true → s.dev.link.up = true → fn < 2 → v < 2 ^ 32 →
      let d := s.dev
      let f := d.fn fn
      let after : Fn → Dev := fun g => if (g.causes &&& g.mask) = 0 then d.setFn fn g else (d.setFn fn g).msix fn 0
      exec (.interruptCauseWrite fn 0x1200 v) s
        = .next { s with dev := after { f with cause := f.cause - (f.cause &&& (v &&& 0x39)) } }
      ∧ exec (.interruptCauseWrite fn 0x1204 v) s = .next { s with dev := after { f with mask := v % 64 } }
      ∧ exec (.interruptCauseWrite fn 0x1208 v) s = .next { s with dev := after { f with intMbx := f.intMbx - (f.intMbx &&& v) } }
      ∧ ∀ k, k < 128 →
          let left := Tab.get 0 f.intRing k - (Tab.get 0 f.intRing k &&& v)
          exec (.interruptCauseWrite fn (0x1240 + 4 * k) v) s
            = .next { s with dev := after { f with intRing := Tab.set f.intRing k left } })



/-! ### Mordant record (R350–R357) -/

/-- The supervisor writes the oldest queued record to the ring slot of the next SEQ (R352, R353); a record of SEV 2 or 3
is copied to the next first-fault slot while one is free, and counted as dropped when none is. Records are queued in
detection order, up to 16, beyond which they are lost and counted; an eleventh of a KIND and SUBJECT within a second
is suppressed and counted unless its SEV is 3; when a full second has passed since the last suppressed one, a
SUPPRESSED record with the count is queued (R353). -/
def Obligations.MordantWritesAndSuppresses : Prop :=
  (∀ (r : MRec) (rest : List MRec) (s : State), s.dev.live = true → s.dev.sys.mramOff = false → s.dev.mdt.queue = r :: rest →
      let d := s.dev
      let v := d.nvm
      ∃ e, exec .mordantWrite s = .next { s with dev := e } ∧ e = { d with nvm := e.nvm, mdt := { d.mdt with queue := rest } }
        ∧ e.nvm.next = (v.next + 1) % 2 ^ 32
        ∧ Tab.get MRec.reset e.nvm.ring (v.next % 131072) = { r with seq := v.next }
        ∧ (∀ k, k ≠ v.next % 131072 → Tab.get MRec.reset e.nvm.ring k = Tab.get MRec.reset v.ring k)
        ∧ (r.sev % 4 < 2 → e.nvm.ff = v.ff ∧ e.nvm.ffDropped = v.ffDropped)
        ∧ (2 ≤ r.sev % 4 → v.ff.length < 1024 →
            Tab.get MRec.reset e.nvm.ff v.ff.length = { r with seq := v.next, sev := r.sev % 4 + 128 })
        ∧ (2 ≤ r.sev % 4 → 1024 ≤ v.ff.length → e.nvm.ff = v.ff ∧ e.nvm.ffDropped = satInc 65535 v.ffDropped))
  ∧ ((∀ (kind subject sev origin : Nat) (data : List Nat) (d : Dev), d.fz.frozen = false →
      let old : Sup := (d.mdt.sup.find? (fun q => q.kind = kind && q.subject = subject)).getD
        { Sup.reset with kind := kind, subject := subject }
      let recent := old.times.filter (fun t => decide (d.sys.uptime < t + 1000000))
      let e := d.mordant kind subject sev origin data
      e = { d with mdt := e.mdt }
      ∧ (recent.length < 10 ∨ sev = 3 → d.mdt.queue.length < 16 → e.mdt.lost = d.mdt.lost
          ∧ e.mdt.queue = d.mdt.queue ++ [{ seq := 0, kind := kind, subject := subject, lt := d.cmLt, uptime := d.sys.uptime,
                                            sev := sev, origin := origin, data := data, epoch := d.sys.epoch }])
      ∧ (recent.length < 10 ∨ sev = 3 → 16 ≤ d.mdt.queue.length → e.mdt.queue = d.mdt.queue ∧ e.mdt.lost = satInc 65535 d.mdt.lost)
      ∧ (10 ≤ recent.length → sev ≠ 3 → e.mdt.queue = d.mdt.queue ∧ e.mdt.lost = d.mdt.lost
          ∧ ∃ q ∈ e.mdt.sup, q.kind = old.kind ∧ q.subject = old.subject ∧ q.supp = old.supp + 1))
    ∧ ∀ (kind subject : Nat) (p : Sup) (s : State), s.dev.live = true →
      s.dev.mdt.sup.find? (fun q => q.kind = kind && q.subject = subject) = some p → p.supp ≠ 0 →
      p.lastAt + 1000000 ≤ s.dev.sys.uptime → s.dev.mdt.queue.length < 16 → 
      (∀ q ∈ s.dev.mdt.sup, q.kind ≠ 0x0F09) →
      ∃ e, exec (.suppressionSecondEnd kind subject) s = .next { s with dev := e } ∧ e = { s.dev with mdt := e.mdt }
        ∧ (∃ r, e.mdt.queue = s.dev.mdt.queue ++ [r] ∧ r.kind = 0x0F09 ∧ r.subject = kind ∧ r.data = le 2 subject ++ le 4 p.supp))

/-- When VDD_3V3 falls below 3.0 V every queued record and then a POWER_FAIL record are written and MRAM writes are
inhibited; when it recovers within 100 µs, writes resume with a POWER_FAIL record whose byte 0 is 1 (R354). When an
erase is done, no record older than its mark is left in the areas named, the others are as they were, SEQ is not
reset, and the clear count goes on (R355). A write of MDT_WSEL of a path starts a load of its own window, and when
the load ends its aperture holds the records FROM to FROM + 63 that exist; the other paths' windows keep what they
hold (R357). -/
def Obligations.MordantSupplyClearAndWindow : Prop :=
  ((∀ s : State, s.dev.fz.frozen = false → s.dev.sys.por = false → s.dev.sys.v3Low = none →
      ∃ e, exec .vdd3v3Low s = .next { s with dev := e } ∧ e.mdt.queue = [] ∧ e.sys.mramOff = true
        ∧ e.sys.v3Low = some s.dev.sys.uptime
        ∧ e.nvm.next = (s.dev.nvm.next + s.dev.mdt.queue.length + 1) % 2 ^ 32
        ∧ (Tab.get MRec.reset e.nvm.ring ((s.dev.nvm.next + s.dev.mdt.queue.length) % 131072)).kind = 0x0F02
        ∧ e = { s.dev with nvm := e.nvm, mdt := { s.dev.mdt with queue := [] }, sys := e.sys })
    ∧ ∀ (a : Nat) (s : State), s.dev.fz.frozen = false → s.dev.sys.por = false → s.dev.sys.v3Low = some a →
      s.dev.sys.uptime < a + 100 → ∃ e, exec .vdd3v3Recover s = .next { s with dev := e } ∧ e.sys.mramOff = false ∧ e.sys.v3Low = none
        ∧ e.nvm.next = (s.dev.nvm.next + 1) % 2 ^ 32
        ∧ (Tab.get MRec.reset e.nvm.ring (s.dev.nvm.next % 131072)).kind = 0x0F02
        ∧ (Tab.get MRec.reset e.nvm.ring (s.dev.nvm.next % 131072)).data = [1, 0, 0, 0, 0])
  ∧ (∀ (areas mark : Nat) (tag : Option Nat) (s : State), s.dev.live = true → s.dev.sys.mramOff = false →
      s.dev.nvm.clearing = some (areas, mark, tag) →
      let v := s.dev.nvm
      ∃ e, exec .mordantClearDone s = .next { s with dev := e } ∧ e.nvm.clearing = none ∧ e.nvm.next = v.next
        ∧ e.nvm.clears = (v.clears + 1) % 65536
        ∧ (bit areas 1 = true → ∀ x, x ∈ e.nvm.ring ↔ x ∈ v.ring ∧ olderThan x.2.seq mark = false)
        ∧ (bit areas 1 = false → e.nvm.ring = v.ring)
        ∧ (bit areas 0 = true → (∀ x ∈ e.nvm.ff, olderThan x.2.seq mark = false) ∧ e.nvm.ffDropped = 0)
        ∧ (bit areas 0 = false → e.nvm.ff = v.ff ∧ e.nvm.ffDropped = v.ffDropped))
  ∧ (∀ (p : Path) (from_ : Nat) (s : State), s.dev.mdtPath p = true → from_ < 2 ^ 32 →
      let d := s.dev
      let r := d.path (pathNo p)
      let loading : PathR :=
        { r with wsel := from_, wload := r.warea, wbusy := true, wvalid := false, wover := false, wcount := 0, wrecs := [] }
      exec (.mordantWindowLoad p from_) s = .next { s with dev := d.setPath (pathNo p) loading }
      ∧ (r.wbusy = true → s.dev.sys.por = false → ∃ e, exec (.mordantWindowLoaded p) s = .next { s with dev := e }
          ∧ e = { d with paths := e.paths } ∧ (∀ q, q ≠ pathNo p → e.path q = d.path q)
          ∧ (e.path (pathNo p)).wbusy = false ∧ (e.path (pathNo p)).wvalid = true
          ∧ (e.path (pathNo p)).wcount = (e.path (pathNo p)).wrecs.length ∧ (e.path (pathNo p)).wcount ≤ 64
          ∧ ∀ i x, (i, x) ∈ (e.path (pathNo p)).wrecs ↔ i < 64 ∧ d.nvm.recAt r.wload ((r.wsel + i) % 2 ^ 32) = some x))


/-! ### Sepia freeze and the TAP (R107, R358–R364) -/

/-- A freeze is triggered by a falling edge of FREEZE_N that was high for at least 1 ms since the release of reset, by
0x5A within 10 ms of 0xA5 in FZ_CTRL.KEY, or by SEPIA_FREEZE (R358); it writes the FREEZE record ahead of the queue,
which stays, takes the link down and freezes the device with the trigger's number (R359). Any other value disarms
(R363). -/
def Obligations.FreezeTriggersStopTheDevice : Prop :=
  ∀ s : State, s.dev.live = true →
    let d := s.dev
    let frozenBy : Nat → Dev → Prop := fun k e =>
      e.fz.frozen = true ∧ e.fz.trigger = k ∧ e.link.up = false ∧ e.mdt = d.mdt ∧ e.chans = d.chans ∧ e.sys = d.sys
      ∧ (d.sys.mramOff = false → e.nvm.next = (d.nvm.next + 1) % 2 ^ 32
          ∧ (Tab.get MRec.reset e.nvm.ring (d.nvm.next % 131072)).kind = 0x0F03
          ∧ (Tab.get MRec.reset e.nvm.ring (d.nvm.next % 131072)).data = le 4 d.mdt.queue.length)
    (∃ e, exec .sepiaFreeze s = .next { s with dev := e } ∧ frozenBy 2 e)
    ∧ (∀ high, 1000 ≤ high → 1000 ≤ d.sys.uptime - d.sys.relAt →
        ∃ e, exec (.freezeNFall high) s = .next { s with dev := e } ∧ frozenBy 0 e)
    ∧ (∀ high, high < 1000 → exec (.freezeNFall high) s = .next s)
    ∧ exec .freezeArm s = .next { s with dev := { d with fz := { d.fz with armedAt := some d.sys.uptime } } }
    ∧ (∀ a, d.fz.armedAt = some a → d.sys.uptime < a + 10000 →
        ∃ e, exec .freezeKeyTrigger s = .next { s with dev := e } ∧ frozenBy 1 e)
    ∧ (∀ a, d.fz.armedAt = some a → a + 10000 ≤ d.sys.uptime →
        exec .freezeArmTimeout s = .next { s with dev := { d with fz := { d.fz with armedAt := none } } }
        ∧ exec .freezeKeyTrigger s = .next { s with dev := { d with fz := { d.fz with armedAt := none } } })
    ∧ (∀ key, key < 256 → key ≠ 0xA5 → key ≠ 0x5A →
        exec (.freezeDisarm key) s = .next { s with dev := { d with fz := { d.fz with armedAt := none } } })

/-- The TAP (R107, R363, R364): SEPIA_ADDR loads a byte offset that is a multiple of 4; SEPIA_READ shifts out one word
of the image from it and advances it by 4; SEPIA_THAW on a frozen device without an owner key ends the freeze with
both functions reset, every channel held, and the THAW record ahead of those still queued, and is ignored on any
other device; entering Test-Logic-Reset releases the debug port's locks. -/
def Obligations.TapReadsThawsAndReleases : Prop :=
  (∀ (off : Nat) (s : State), s.dev.sys.por = false → off < 2 ^ 32 → off % 4 = 0 →
    exec (.sepiaAddr off) s = .next { s with dev := { s.dev with fz := { s.dev.fz with tapAddr := off } } })
  ∧ (∀ s : State, s.dev.sys.por = false → s.dev.fz.frozen = true →
    exec (.sepiaRead 1) s = .next { s with dev := { s.dev with
      fz := { s.dev.fz with tapAddr := (s.dev.fz.tapAddr + 4) % 2 ^ 32 }, out := .tap (s.dev.fzWord s.dev.fz.tapAddr) :: s.dev.out } })
  ∧ (∀ s : State, s.dev.nvm.ownerKey.isSome = true ∨ s.dev.fz.frozen = false → exec .sepiaThaw s = .next s)
  ∧ (∀ s : State, s.dev.fz.frozen = true → s.dev.sys.por = false → s.dev.sys.perst = false → s.dev.nvm.ownerKey = none →
    ∃ t, exec .sepiaThaw s = .next t ∧ t.dev.fz.frozen = false ∧ t.dev.fz.thawed = true ∧ t.dev.fz.hold = true
      ∧ (t.dev.fn 0).fenced = true ∧ (t.dev.fn 1).fenced = true
      ∧ (∃ r rest, t.dev.mdt.queue = r :: rest ∧ r.kind = 0x0F04 ∧ s.dev.mdt.queue <+: rest)
      ∧ ∀ n, n < 48 → (t.dev.chan n).st.on = false)
  ∧ ∀ s : State, s.dev.live = true → ∃ t, exec .tapTestLogicReset s = .next t ∧ t.pending = s.pending ∧ t.win = s.win
      ∧ (∀ n, n < 32 → t.locks.who n = if s.locks.who n = 5 then 0 else s.locks.who n)
      ∧ s.dev.reported t.dev


/-! ### Emergency mute, holds, faults (R263–R283) -/

/-- The emergency sources act at once (R276–R278): a whole write of EMG_MUTE, a write of EMG_CFG by PF1 or the two-wire
window, clearing PIN_HELD, and the pin. A hard source that asserts leaves no channel's transistors on (R15). When
the layer goes down or up its ramp starts from the value reached, down with the shortest ramp of the asserted
sources. PF0's write of EMG_CFG is ignored and counted. -/
def Obligations.EmergencySourcesActAtOnce : Prop :=
  ∀ (p : Path) (v : Nat) (s : State), s.dev.live = true →
    let d := s.dev
    let g := d.emg
    let acts : Instr → Emg → Prop := fun i x => ∃ e, exec i s = .next { s with dev := e } ∧ Emg.sourcesAs x e.emg
      ∧ Dev.chansDiffer { d with emg := e.emg } e ∧ e.emg.active = e.emg.isActive d.sys.uptime
      ∧ (x.hardOn = true → ∀ n, n < 48 → (e.chan n).st.on = false)
      ∧ (x.any ≠ g.any → e.emg.down = x.any ∧ e.emg.ramp0 = g.value d.sys.uptime ∧ e.emg.rampAt = d.sys.uptime
          ∧ (x.any = true → e.emg.rampLen = 100 * x.shortest))
    (d.onPath p = true → acts (.emgMuteWrite p v) { g with mute := bit v 0, hard := bit v 1, ramp := bits v 25 16 })
    ∧ (d.onPath p = true → p ≠ .pf0 → acts (.emgCfgWrite p v)
        { g with pinHard := bit v 0, outPin := bit v 1, outReg := bit v 2, outCmd := bit v 3, outLatch := bit v 4,
                 pinLatch := bit v 5, pinRamp := bits v 25 16 })
    ∧ (d.link.up = true → exec (.emgCfgWrite .pf0 v) s
        = .next { s with dev := d.setPath 0 { d.path 0 with eReg := satInc 255 (d.path 0).eReg } })
    ∧ (d.onPath p = true → g.pinHeld = true → acts (.pinHeldClear p) { g with pinHeld := false })
    ∧ (g.verm = false → acts .vermInAssert { g with verm := true, pinCount := satInc 65535 g.pinCount })
    ∧ (g.verm = true → acts .vermInRelease { g with verm := false, pinHeld := g.pinHeld || g.pinLatch })

/-- Temperature, sensor, supply and isolator holds (R17, R272, R273, R281): the fault stops the channels of its die or
pair with its code unless a higher hold is on them; when it ends the channels that waited for it in HIZ and are
enabled start again unless another hold is on them. The sense chains of a die whose PVDD has left its range deliver
zero, their histories empty, and restart with its return (R236). -/
def Obligations.DieAndPairHoldsStopAndResume : Prop :=
  ∀ s : State, s.dev.live = true →
    let d := s.dev
    (∀ p t, p < 24 → plausible t = true → 1600 < t → (d.pr p).tripped = false →
        ∃ e, exec (.thermalShutdown p t) s = .next { s with dev := e }
          ∧ Dev.chansDiffer { d with prs := e.prs, dies := e.dies } e ∧ e.heldOff (dieChans (p / 4)) 0x40 2
          ∧ e.die (p / 4) = { d.die (p / 4) with thermal := true } ∧ (∀ k, k ≠ p / 4 → e.die k = d.die k)
          ∧ e.pr p = { d.pr p with temp := t, tripped := true } ∧ (∀ q, q ≠ p → e.pr q = d.pr q))
    ∧ (∀ k (t : Fin 4 → Int), k < 6 → (d.die k).thermal = true → (∀ j, plausible (t j) = true ∧ t j < 1300) →
        ∃ e, exec (.thermalRecover k (t 0) (t 1) (t 2) (t 3)) s = .next { s with dev := e }
          ∧ Dev.chansDiffer { d with prs := e.prs, dies := e.dies } e ∧ d.resumes e
          ∧ e.die k = { d.die k with thermal := false } ∧ (∀ j, j ≠ k → e.die j = d.die j)
          ∧ (∀ j : Fin 4, e.pr (4 * k + j) = { d.pr (4 * k + j) with temp := t j, tripped := false }))
    ∧ (∀ p silent t, p < 24 → (silent = true ∨ plausible t = false) → (d.pr p).sensor = false →
        ∃ e, exec (.sensorFault p silent t) s = .next { s with dev := e }
          ∧ Dev.chansDiffer { d with prs := e.prs } e ∧ e.heldOff [2 * p, 2 * p + 1] 0x41 1
          ∧ e.pr p = { d.pr p with sensor := true, silent := silent, okAt := none } ∧ (∀ q, q ≠ p → e.pr q = d.pr q))
    ∧ (∀ p t, p < 24 → (d.pr p).sensor = true →
        ((plausible t = false ∨ 1300 ≤ t) → exec (.sensorRecover p t) s
            = .next { s with dev := d.setPr p { d.pr p with okAt := none } })
        ∧ (plausible t = true → t < 1300 → (d.pr p).okAt = none → exec (.sensorRecover p t) s
            = .next { s with dev := d.setPr p { d.pr p with okAt := some d.sys.uptime, temp := t } })
        ∧ (∀ a, plausible t = true → t < 1300 → (d.pr p).okAt = some a → a + 1000000 ≤ d.sys.uptime →
            ∃ e, exec (.sensorRecover p t) s = .next { s with dev := e } ∧ Dev.chansDiffer { d with prs := e.prs } e
              ∧ d.resumes e ∧ e.pr p = { d.pr p with sensor := false, okAt := none, temp := t }))
    ∧ (∀ k mv, k < 6 → (mv ≤ 10000 ∨ 54000 ≤ mv) → (d.die k).pvdd = false →
        ∃ e, exec (.pvddFault k mv) s = .next { s with dev := e }
          ∧ Dev.chansDiffer { d with dies := e.dies, chains := e.chains } e
          ∧ (∀ c ∈ dieChains k, e.chain c = (d.chain c).clear) ∧ e.heldOff (dieChans k) (if 54000 ≤ mv then 0x51 else 0x50) 3
          ∧ e.die k = { d.die k with pvdd := true, overV := decide (54000 ≤ mv), mv := mv } ∧ (∀ j, j ≠ k → e.die j = d.die j))
    ∧ (∀ k mv, k < 6 → 10500 < mv → mv < 53500 → (d.die k).pvdd = true →
        ∃ e, exec (.pvddRecover k mv) s = .next { s with dev := e }
          ∧ Dev.chansDiffer { d with dies := e.dies, chains := e.chains } e ∧ d.resumes e
          ∧ e.die k = { d.die k with pvdd := false, mv := mv } ∧ (∀ j, j ≠ k → e.die j = d.die j)
          ∧ (∀ c ∈ dieChains k, (e.chain c).restartAt = some d.sys.uptime))
    ∧ (∀ k lost, k < 6 → (d.die k).iso = false →
        ∃ e, exec (.isoLink k lost) s = .next { s with dev := e } ∧ Dev.chansDiffer { d with dies := e.dies } e
          ∧ e.heldOff (dieChans k) 0x52 4
          ∧ e.die k = { d.die k with iso := true } ∧ (∀ j, j ≠ k → e.die j = d.die j))
    ∧ (∀ k, k < 6 → (d.die k).iso = true →
        ∃ e, exec (.isoLinkRestore k) s = .next { s with dev := e } ∧ Dev.chansDiffer { d with dies := e.dies } e
          ∧ d.resumes e ∧ e.die k = { d.die k with iso := false } ∧ (∀ j, j ≠ k → e.die j = d.die j))

/-- The current limit (R235, R264–R269, R275): a tripped carrier period counts once, for the shutdown counters too, and
keeps whether the coarse voltage is below 10 % of PVDD and the index above 0.3; when a counter is met the channel is
shut down with the class of its trips; after TRETRY a probe starts and is counted, unless a hold or a mute keeps it
waiting, and under CYCLE_LIMIT_LATCH the channel latches; a probe that finds no trip and no short lets the channel
run on, one that finds either shuts it down again; ten seconds of clean switching return the retries to zero. Stage
faults (R210, R218, R219, R224): a missing or spurious edge, or a crossing beyond four windows, shuts the channel
down; a mismatch beyond EDGEWIN that no current limit explains is counted, and four of any 16 edges shut the channel
down; so do eight updates of sense overload and 10 ms of share error. A measuring window that ends gives R_meas
where it is valid, rejected outside 0.5 to 2.5 times RE, and starts the next one (R248). -/
def Obligations.TripsAndStageFaultsShutDown : Prop :=
  (∀ (n : Nat) (s : State), s.dev.live = true → n < 48 →
      let d := s.dev
      let c := d.chan n
      let f := c.flt
      (c.st.on = true → ∀ b high cyc,
        ∃ e, exec (.cycleTrip n b high .own .own cyc) s = .next { s with dev := e } ∧ e = { d with chans := e.chans }
          ∧ d.otherChans e (d.mates n)
          ∧ ∀ m ∈ d.mates n, let g := (d.chan m).flt
              e.chan m = { d.chan m with flt := (e.chan m).flt }
              ∧ ((g.recent.head?).map (·.cyc) = some cyc →
                  (e.chan m).flt.trips = g.trips ∧ (e.chan m).flt.cons = g.cons ∧ (e.chan m).flt.times = g.times)
              ∧ ((g.recent.head?).map (·.cyc) ≠ some cyc → (e.chan m).flt.trips = satInc (2 ^ 32 - 1) g.trips
                  ∧ (e.chan m).flt.cons = (if (g.recent.head?).map (·.cyc + 1) = some cyc then satInc 255 g.cons else 1)
                  ∧ ((e.chan m).flt.recent.head?).map (fun t => (t.low, t.idx))
                      = some (decide (d.coarseMv n * 10 < ((d.die (dieOf n)).mv : Rat)), decide (3 / 10 < absQ c.loop.m))))
      ∧ (c.st.on = true → f.probe = 0 →
          (f.ncons ≤ f.cons ∨ f.mtrips ≤ (f.times.filter (fun a => decide (d.sys.uptime < a + 1000 * f.win))).length) →
          ∃ e, exec (.ocShutdown n) s = .next { s with dev := e } ∧ d.chansDiffer e ∧ d.otherChans e (d.mates n)
            ∧ d.shutAs e n (0x10 + shortClass f.recent 12))
      ∧ (∀ a, f.dcAt = some a → a + 1000 * f.tdc ≤ d.sys.uptime →
          ∃ e, exec (.dcFault n) s = .next { s with dev := e } ∧ d.chansDiffer e ∧ d.otherChans e (d.mates n)
            ∧ (e.chan n).st = .latched ∧ (e.chan n).flt.code = 0x30)
      ∧ (∀ t, c.st = .retry → f.retryAt = some t → t ≤ d.sys.uptime →
          ((d.die (dieOf n)).oc = 1 → ∃ e, exec (.retryTimer n) s = .next { s with dev := e } ∧ d.chansDiffer e
            ∧ d.otherChans e (d.mates n) ∧ (e.chan n).st = .latched)
          ∧ ((d.die (dieOf n)).oc ≠ 1 → d.held n = true ∨ d.emg.any = true → exec (.retryTimer n) s = .next s)
          ∧ ((d.die (dieOf n)).oc ≠ 1 → d.held n = false → d.emg.any = false →
              ∃ e, exec (.retryTimer n) s = .next { s with dev := e } ∧ e = { d with chans := e.chans }
                ∧ d.otherChans e (d.mates n) ∧ (e.chan n).st = .softStart ∧ (e.chan n).flt.probe = 1
                ∧ (e.chan n).flt.retryAt = none ∧ (e.chan n).flt.retries = satInc 65535 f.retries))
      ∧ (∀ mohm, f.probe = 2 → f.probeTrips = [] → c.since + 2000 ≤ d.sys.uptime →
          let short : Prop := mohm < (if (d.pr (n / 2)).bridged then 500 else 1000)
          ∃ e, exec (.probeDone n mohm) s = .next { s with dev := e } ∧ d.chansDiffer e ∧ d.otherChans e (d.mates n)
            ∧ (¬short → (e.chan n).flt.probe = 0 ∧ (e.chan n).st = (if c.enabled = false then ChSt.disabled
                else if c.firstId then .identify else .switching))
            ∧ (short → d.shutAs e n 0x10))
      ∧ (∀ mohm, f.probe = 1 → f.probeTrips ≠ [] →
          ∃ e, exec (.probeDone n mohm) s = .next { s with dev := e } ∧ d.chansDiffer e ∧ d.otherChans e (d.mates n)
            ∧ d.shutAs e n (0x10 + shortClass f.probeTrips f.probeTrips.length))
      ∧ ∀ a, c.st = .switching → f.cleanAt = some a → a + 10000000 ≤ d.sys.uptime →
          ∃ e, exec (.retriesResetTimer n) s = .next { s with dev := e } ∧ d.chansDiffer e ∧ e.tags = d.tags
            ∧ d.otherChans e [n] ∧ e.chan n = { c with flt := { f with retries := 0, latchOpen := false } })
  ∧ (∀ (n : Nat) (s : State), s.dev.live = true → n < 48 →
      let d := s.dev
      let c := d.chan n
      let shuts : Instr → Nat → Prop := fun i code => ∃ e, exec i s = .next { s with dev := e } ∧ d.chansDiffer e
        ∧ d.otherChans e (d.mates n) ∧ d.shutAs e n code
      (c.st.on = true → ∀ b mismatch cut,
        shuts (.edgeStamp n b 1 mismatch cut) 0x22 ∧ shuts (.edgeStamp n b 2 mismatch cut) 0x22
        ∧ (cut = false → 4 * c.flt.edgewin < mismatch.natAbs → shuts (.edgeStamp n b 0 mismatch cut) 0x22)
        ∧ (let bad : Bool := decide (c.flt.edgewin < mismatch.natAbs) && !cut
           let win := (bad :: (if b then c.loop.winB else c.loop.winA)).take 16
           cut = true ∨ mismatch.natAbs ≤ 4 * c.flt.edgewin →
           (((win.filter (· = true)).length < 4 ∨ c.flt.probe ≠ 0) →
              ∃ e, exec (.edgeStamp n b 0 mismatch cut) s = .next { s with dev := e } ∧ e = { d with chans := e.chans }
                ∧ d.otherChans e [n]
                ∧ e.chan n = { c with loop := (e.chan n).loop }
                ∧ (e.chan n).loop = { c.loop with winA := (e.chan n).loop.winA, winB := (e.chan n).loop.winB, edgeErr := (e.chan n).loop.edgeErr }
                ∧ (e.chan n).loop.winA = (if b then c.loop.winA else win) ∧ (e.chan n).loop.winB = (if b then win else c.loop.winB)
                ∧ (e.chan n).loop.edgeErr = if bad then satInc (2 ^ 32 - 1) c.loop.edgeErr else c.loop.edgeErr)
           ∧ (4 ≤ (win.filter (· = true)).length → c.flt.probe = 0 → shuts (.edgeStamp n b 0 mismatch cut) 0x22)))
      ∧ (c.st.on = true → ∀ current unstable, 8 ≤ (if current then c.loop.ovI else c.loop.ovV) →
          shuts (.senseOverload n current unstable) 0x21)
      ∧ (∀ p a, n = 2 * p → c.st.on = true → c.loop.shareAt = some a → a + 10000 ≤ d.sys.uptime → shuts (.shareFault p) 0x23)
      ∧ (32 ≤ c.prot.winBlk → bit c.prot.const.flags 1 = false →
          let w := c.sums
          let rm : Rat := (w.vi - w.motI) / w.ii
          let re : Rat := (c.prot.ts.re : Rat) / 1000
          let valid : Prop := c.prot.winBad = false ∧ 1024 * (9 / 10000) ≤ w.ii
          ∃ e, exec (.estimationWindowEnd n .own .own .own) s = .next { s with dev := e } ∧ e = { d with chans := e.chans }
            ∧ d.otherChans e [n] ∧ (e.chan n).prot.winBlk = 0 ∧ (e.chan n).prot.winBad = !d.tapValid n 2
            ∧ (e.chan n).sums = { w with vi := 0, motI := 0, ii := 0 }
            ∧ (¬valid → (e.chan n).prot.rmeas = c.prot.rmeas ∧ (e.chan n).prot.rejects = c.prot.rejects
                ∧ (e.chan n).prot.tc = c.prot.tc)
            ∧ (valid → ((rm < re / 2 ∨ re * 5 / 2 < rm) → (e.chan n).prot.rejects = satInc 65535 c.prot.rejects
                  ∧ (e.chan n).prot.rmeas = c.prot.rmeas)
                ∧ (re / 2 ≤ rm → rm ≤ re * 5 / 2 → (e.chan n).prot.rmeas = (roundI (rm * 1000)).toNat
                  ∧ (e.chan n).prot.rejects = c.prot.rejects))))



/-! ### The output loop (R12, R206–R224) -/

/-- One update of the loop (R10, R12, R207, R209, R210, R216, R227, R228, R239): the modulators' bits pass the channel's
two sense chains, whose LOOP tap gives the sense values, and no other chain moves; the two half-widths of an audio
period fill half of it; a soft start drives both half-bridges alike; after its chirp an identification has a
reference of zero; the carrier offset moves by at most Tc/256, and only where a carrier period ends; after a reset
of the chains the integrators hold for this one update; after a corrupted frame the update uses the sense values of
the one before; overload is counted over consecutive updates. Beside the channel, its pair's primary and the chains
only the die's PVDD reading, EMG_STAT.ACTIVE and its message may move. A corrupted upstream frame is counted and
replaces the sense values of its die's channels for their next update (R12). -/
def Obligations.LoopUpdatesAndCorruptFrames : Prop :=
  (∀ (n : Nat) (v i : List Bool) (pvdd ov : Nat) (s : State), s.dev.live = true → n < 48 → s.dev.engines = true →
      let d := s.dev
      let c := d.chan n
      let o := (d.senseStep n v i).tapOut n 0
      ∃ e, exec (.loopUpdate n v i pvdd ov) s = .next { s with dev := e }
        ∧ e = { d with chans := e.chans, dies := e.dies, chains := e.chains, emg := { d.emg with active := e.emg.active },
                       fns := e.fns, out := e.out, link := e.link }
        ∧ e.die (dieOf n) = { d.die (dieOf n) with mv := pvdd } ∧ (∀ k, k ≠ dieOf n → e.die k = d.die k)
        ∧ (∀ k, k ≠ n → k ≠ n + 48 → e.chain k = d.chain k)
        ∧ d.otherChans e [n, n / 2 * 2] ∧ (e.chan n).st = c.st
        ∧ (e.chan n).loop.replaced = false
        ∧ (e.chan n).loop.lastV = (if c.loop.replaced then c.loop.lastV else o.1)
        ∧ (e.chan n).loop.lastI = (if c.loop.replaced then c.loop.lastI else o.2)
        ∧ (e.chan n).loop.ovV = (if bit ov 0 then satInc 8 c.loop.ovV else 0)
        ∧ (e.chan n).loop.ovI = (if bit ov 1 then satInc 8 c.loop.ovI else 0)
        ∧ (c.st.on = true → d.isPartner n = false →
            (c.st = .switching → (e.chan n).loop.hB = d.tc / 2 - (e.chan n).loop.hA)
            ∧ (c.st = .softStart → c.flt.probe ≠ 2 → (e.chan n).loop.hA = softWidth d.tc (d.sys.uptime - c.since) false
                ∧ (e.chan n).loop.hB = (e.chan n).loop.hA)
            ∧ (c.st = .identify → chirpLen ≤ c.loop.idN → (e.chan n).loop.ref = 0)
            ∧ absQ ((e.chan n).loop.slip - c.loop.slip) ≤ (d.tc : Rat) / 256
            ∧ (c.loop.carClk + 800 < d.period → (e.chan n).loop.slip = c.loop.slip)
            ∧ (c.loop.holdInt = true → (e.chan n).loop.z1 = c.loop.z1 ∧ (e.chan n).loop.z2 = c.loop.z2)
            ∧ (e.chan n).loop.holdInt = false))
  ∧ (∀ (k : Nat) (s : State), s.dev.live = true → k < 6 →
      let d := s.dev
      ∃ e, exec (.upstreamFrameCorrupt k) s = .next { s with dev := e } ∧ e = { d with dies := e.dies, chans := e.chans }
        ∧ e.die k = { d.die k with frameBad := satInc (2 ^ 32 - 1) (d.die k).frameBad } ∧ (∀ j, j ≠ k → e.die j = d.die j)
        ∧ ∀ n, e.chan n = if n / 8 = k then { d.chan n with loop := { (d.chan n).loop with replaced := true } } else d.chan n)


/-- Channel sequencing (R123, R216, R220, R221, R224): after 10 ms a soft start goes on to the second step of a probe,
to the identification where it is due, or to SWITCHING with the drive opening from zero; an identification whose f0
and Q lie in range is accepted, a rejected one latches the channel; a soft stop ends DISABLED, or starts again where
the channel was enabled meanwhile and no hold is present. The waits of a disable (R123, R316, R318): a crossing ends
the wait of a channel, an object or a slot, and the ramp follows; a wait that has lasted its timeout ends too and is
counted. When the ramp to silence has ended the channel stops; a port without frames is OFF and unbound with its
PORT_ENABLE DONE. -/
def Obligations.ChannelSequencesAndDisablesEnd : Prop :=
  (∀ (n : Nat) (s : State), s.dev.live = true →
      let d := s.dev
      let c := d.chan n
      (c.st = .softStart → c.since + 10000 ≤ d.sys.uptime →
        ∃ e, exec (.softStartDone n) s = .next { s with dev := e } ∧ d.chansDiffer e ∧ e.tags = d.tags
          ∧ d.otherChans e (d.mates n)
          ∧ (c.flt.probe = 1 → e.chan n = { c with since := d.sys.uptime, flt := { c.flt with probe := 2 } })
          ∧ (c.flt.probe = 0 → c.firstId = true → (e.chan n).st = .identify)
          ∧ (c.flt.probe = 0 → c.firstId = false → (e.chan n).st = .switching ∧ (e.chan n).openAt = d.sys.uptime
              ∧ (e.chan n).drive.dst = 1 ∧ (e.chan n).drive.val = 0))
      ∧ (c.st = .identify → c.since + 20000 ≤ d.sys.uptime → d.sys.ready = true → ∀ f0 q : Nat,
          let good : Prop := 25000 ≤ f0 ∧ f0 ≤ 150000 ∧ (f0 : Rat) < 1228800000 / (d.period : Rat) / 4 ∧ 30 ≤ q ∧ q ≤ 500
          ∃ e, exec (.identificationDone n f0 q) s = .next { s with dev := e } ∧ d.chansDiffer e ∧ d.otherChans e (d.mates n)
            ∧ (e.chan n).f0 = f0 ∧ (e.chan n).q = q ∧ (e.chan n).idRan = true
            ∧ (good → (e.chan n).st = .switching ∧ (e.chan n).firstId = false ∧ (e.chan n).idOk = true)
            ∧ (¬good → (e.chan n).st = .latched ∧ (e.chan n).firstId = true ∧ (e.chan n).idOk = false
                ∧ (e.chan n).flt.code = 0x20))
      ∧ (c.st = .softStop → c.since + 10000 ≤ d.sys.uptime →
          ∃ e, exec (.softStopDone n) s = .next { s with dev := e } ∧ d.chansDiffer e ∧ e.tags = d.tags
            ∧ d.otherChans e (d.mates n)
            ∧ (e.chan n).st = (if c.enabled = false then ChSt.disabled else if d.held n then .hiz else .softStart)))
  ∧ (∀ (n : Nat) (s : State), s.dev.live = true →
      let d := s.dev
      let c := d.chan n
      (n < 48 → c.stop = .wait → exec (.zeroCrossing (.chan n)) s = .next { s with dev := d.setChan n { c with stop := .crossed } })
      ∧ (n < 48 → c.stop = .wait → c.waitAt + 1000 * c.zcto ≤ d.sys.uptime →
          ∃ e, exec (.zeroCrossingTimeout (.chan n)) s = .next { s with dev := e } ∧ e = { d with chans := e.chans, tags := e.tags }
            ∧ d.otherChans e [n] ∧ e.chan n = { c with stop := .crossed, zctoCnt := satInc (2 ^ 32 - 1) c.zctoCnt }
            ∧ (∀ t, c.stopTags = [t] → e.tag t = { d.tag t with zctos := satAdd 65535 (d.tag t).zctos 1 }))
      ∧ (n < 48 → c.stop = .ramp → d.isPartner n = false → (if d.ownStop n then c.drive.still else c.aux.still) = true →
          ∃ e, exec (.disableRampDone (.chan n)) s = .next { s with dev := e } ∧ d.chansDiffer e ∧ d.otherChans e (d.mates n)
            ∧ (e.chan n).stop = .no ∧ (e.chan n).stopTags = []
            ∧ (e.chan n).st = if d.ownStop n then .softStop else c.st)
      ∧ (n < 256 → ∀ a, (d.obj n).wait = some a → 
          (a ≤ d.sys.uptime →
            exec (.zeroCrossing (.obj n)) s = .next { s with dev := d.setObj n { d.obj n with wait := none, ending := true } })
          ∧ (a + 1000 * d.objZcto n ≤ d.sys.uptime →
              ∃ e, exec (.zeroCrossingTimeout (.obj n)) s = .next { s with dev := e }
                ∧ e = { d with objs := e.objs, chans := e.chans, tags := e.tags }
                ∧ e.obj n = { d.obj n with wait := none, ending := true }))
      ∧ (∀ k, n < 4 → k < 64 → (Tab.get Gate.reset (d.port n).rgates k).st ≠ .waitOut →
          let p := d.port n
          let g := p.gate k
          (g.st = .waitIn →
            exec (.zeroCrossing (.port n k)) s = .next { s with dev := d.setPort n (p.setGate k { g with st := .up, pos := 0 }) }
            ∧ (g.since + 1000 * g.limit ≤ d.sys.uptime →
                exec (.zeroCrossingTimeout (.port n k)) s
                  = .next { s with dev := d.setPort n { (p.setGate k { g with st := .up, pos := 0 }) with
                                                        zctoCnt := satInc (2 ^ 32 - 1) p.zctoCnt } }))
          ∧ (g.st = .waitOut →
            let st' := if p.endTag.isSome then GateSt.crossed else GateSt.down
            exec (.zeroCrossing (.port n k)) s
              = .next { s with dev := d.setPort n (p.setGate k { g with st := st', pos := 0 }) }))
      ∧ ∀ t, n < 4 → (d.port n).endTag = some t → (d.port n).st = .unlocked → (d.tag t).st = .active → (d.tag t).drop = false →
          (d.tag t).outQ = [] → (∀ x ∈ d.trn.reads, x.taken = true) →
          ∃ e, exec (.disableRampDone (.port n 0)) s = .next { s with dev := e }
            ∧ e = { d with ports := e.ports, tags := e.tags, dones := e.dones, faults := e.faults }
            ∧ (e.port n).st = .off ∧ (e.port n).en = false ∧ (e.port n).rxring = none ∧ (e.port n).txring = none
            ∧ (∀ q, q ≠ n → e.port q = d.port q) ∧ e.ended t OK ∧ d.otherTags e t)



/-! ### The block period (R28, R184–R186) -/

/-- A block period renders one block of each domain it names (R28, R184): with no command, re-anchor, disable, scene
stream or change of L_pres due, the domain's next block starts 32 samples further on, 64 in a double-rate domain;
domains it does not name keep everything, and power state, timebase settings and emergency layer stay. At the end of
an uptime second the largest counts of its block periods are kept for the mirror, zeros where no block was rendered
in the second that has just ended, and start anew; where a context was carried the second is counted and
BUDGET_SHORT raised (R186, R412, R417); before it nothing happens. A GET_SUMMARY that waits is written at the next
block period and ends with OK (R125, R127): shown where it is the only command and translation is off. -/
def Obligations.BlockPeriodsRenderAndReport : Prop :=
  (∀ (doms : List Nat) (stalls : Nat) (temps : List (Nat × Int)) (mics : List (Nat × List Bool)) (s : State),
      s.dev.live = true → doms.Nodup → (∀ r ∈ doms, r < 4 ∧ s.dev.renders r = true) → s.dev.tags = [] → s.dev.streams = [] →
      (∀ r, r < 4 → (s.dev.dom r).dis = none ∧ (s.dev.dom r).lpresNext = none ∧ (s.dev.dom r).anchorAt = none) →
      let d := s.dev
      ∃ e, exec (.renderBlock doms stalls temps .own mics) s = .next { s with dev := e }
        ∧ (∀ r, r ∈ doms → e.dom r
            = { d.dom r with nextBlk := (d.dom r).nextBlk + (if (d.dom (d.clk r)).dbl then 64 else 32) })
        ∧ (∀ r, r ∉ doms → e.dom r = d.dom r) ∧ e.sys = d.sys ∧ e.tb = d.tb ∧ e.emg = d.emg)
  ∧ (∀ s : State, s.dev.live = true →
      let d := s.dev
      let r := d.rend
      let now := d.sys.uptime / 1000000 * 1000000
      let x : Rend := { r with shortAt := now, carriedLast := if now = r.shortAt + 1000000 then r.carriedMax else 0,
                               slotsLast := if now = r.shortAt + 1000000 then r.slotsMax else 0, carriedMax := 0, slotsMax := 0 }
      let y : Rend := { x with shortSec := satInc (2 ^ 32 - 1) r.shortSec }
      (d.sys.uptime < r.shortAt + 1000000 → exec .budgetShortReport s = .next s)
      ∧ (r.shortAt + 1000000 ≤ d.sys.uptime →
          (r.carriedMax = 0 → exec .budgetShortReport s = .next { s with dev := { d with rend := x } })
          ∧ (r.carriedMax ≠ 0 → ∃ e, exec .budgetShortReport s = .next { s with dev := e } ∧ e.rend = y
              ∧ Dev.reported { d with rend := y } e ∧ (e.fn 0).evtSeq = ((d.fn 0).evtSeq + 1) % 65536)))
  ∧ (∀ (n stalls : Nat) (t : Tag) (h : Hdr) (s : State), s.dev.live = true → s.dev.sys.ready = true → n < 512 →
      s.dev.tags = [(n, t)] → t.st = .active → t.ph = .sched → t.effs = [] → t.ctxs = [] → t.outQ = [] → t.fin = none →
      t.endLt = none → t.cmd = some .getSummary → t.drop = false → t.cancelAt = false →
      t.hdr = some h → h.outlen ≠ 0 → h.out % 64 = 0 → h.out + 98304 ≤ 2 ^ 38 →
      (s.dev.fn (fnOf t.sender)).fenced = false → (s.dev.fn (fnOf t.sender)).trnEn = false → s.dev.stalled (0x1000 + n) = false →
      (∀ r, r < 4 → (s.dev.dom r).dis = none ∧ (s.dev.dom r).anchorAt = none) →
      ∃ e, exec (.renderBlock [] stalls [] .own []) s = .next { s with dev := e } ∧ e.ended n OK ∧ (e.tag n).result = 0
        ∧ ∃ a b, Out.write (fnOf t.sender) h.out (some h.out) a b ∈ e.out ∧ b.take 8 = le 4 1 ++ le 4 98304)



/-! ### Timebase (R20–R32) -/

/-- A line word that fails an intrinsic check (R24) is counted by that check and changes nothing else, but that it
breaks the second of good words that a failed-over pair waits for (R32): framing and sync in FORMAT_ERR, the CRC in
CRC_ERR, another rate in RATE_ERR. A valid word within 2 µs of its prediction, or within 20 µs where the domain is
not LOCKED, is in sequence: its phase error is removed by slew, the word time starts anew, and HOLDOVER and FREERUN
end LOCKED (R25, R26); ACQUIRE ends LOCKED once 100 ms of such words lay within 250 ns. Any other valid word of a
LOCKED domain counts as SEQ_ERR and leaves state, line-time and slew alone; shown where no re-anchor waits. The
timers of a domain without a partner (R25): four line periods without a word lead LOCKED, and ACQUIRE that has its
line-time, into HOLDOVER, where frequency and line-time run on and outputs may start, and straight on into FREERUN
with a limit of 0 ms; the acquire timer ends in FREERUN with line-time set; the holdover limit ends in FREERUN.
Other domains and every resource but channels, commands and reports stay. A pair (R32): TD0 that has followed LTL1
tracks LTL0 again once that has delivered 1 s of in-sequence words without a gap; a mismatch that lasts is reported
once in each uptime second. -/
def Obligations.TimebaseFollowsWordsTimersAndPair : Prop :=
  (∀ (n w ns : Nat) (framing : Bool) (s : State), s.dev.live = true → n < 4 → (s.dev.dom n).st ≠ .disabled →
      let d := s.dev
      let m := d.dom n
      let fhi := bit w 54
      let at_ : Int := (ns : Int) - (m.cable : Int)
      let pred := d.predFrame n (bits w 34 22) at_
      let x : Word := { frame := m.frameOf pred fhi (bits w 50 35) (bits w 34 22), line := bits w 34 22, lpf := bits w 21 8,
                        ns := at_ }
      let err := d.phaseErr n x fhi 0
      let near : Prop := err.2 = true ∧ absQ (m.predErr err.1) ≤ if m.st = .locked then 2000 else 20000
      let m' : Dom := { m with backAt := if m.failover then none else m.backAt }
      ((framing = false ∨ bits w 63 60 ≠ 11) → exec (.lineWord n w framing ns) s
          = .next { s with dev := d.setDom n { m' with fmtErr := satInc (2 ^ 32 - 1) m.fmtErr } })
      ∧ (framing = true → bits w 63 60 = 11 → crc8 w ≠ w % 256 → exec (.lineWord n w framing ns) s
          = .next { s with dev := d.setDom n { m' with crcErr := satInc (2 ^ 32 - 1) m.crcErr } })
      ∧ (framing = true → bits w 63 60 = 11 → crc8 w = w % 256 → bits w 59 58 = n → bits w 57 55 ≠ m.rate →
          exec (.lineWord n w framing ns) s
            = .next { s with dev := d.setDom n { m' with rateErr := satInc (2 ^ 32 - 1) m.rateErr } })
      ∧ (m.badWord n pred w framing = none → d.tb.pair = false → m.ltSet = true → m.failover = false →
          (∀ k, (d.dom k).anchorAt = none) →
          ∃ e, exec (.lineWord n w framing ns) s = .next { s with dev := e } ∧ Dev.chansDiffer { d with doms := e.doms } e
            ∧ (near → (e.dom n).slew = err.1 ∧ (e.dom n).lastSeqAt = d.sys.uptime ∧ (e.dom n).lastValidAt = d.sys.uptime
                ∧ (e.dom n).seqErr = m.seqErr ∧ (e.dom n).pos = m.pos
                ∧ (m.st = .locked ∨ m.st = .holdover ∨ m.st = .freerun → (e.dom n).st = .locked)
                ∧ (m.st = .acquire → 250 < absQ err.1 → (e.dom n).st = .acquire ∧ (e.dom n).lockAt = none)
                ∧ (∀ a, m.st = .acquire → absQ err.1 ≤ 250 → m.lockAt = some a →
                    (e.dom n).st = if a + 100000 ≤ d.sys.uptime then .locked else .acquire))
            ∧ (¬near → m.st = .locked → (e.dom n).seqErr = satInc (2 ^ 32 - 1) m.seqErr ∧ (e.dom n).st = .locked
                ∧ (e.dom n).pos = m.pos ∧ (e.dom n).slew = m.slew ∧ (e.dom n).lastSeqAt = m.lastSeqAt ∧ e.tags = d.tags)))
  ∧ (∀ (n : Nat) (s : State), s.dev.live = true → s.dev.tb.pair = false →
      let d := s.dev
      let m := d.dom n
      let now := d.sys.uptime
      let goes : Instr → (Dev → Prop) → Prop := fun i p => ∃ e, exec i s = .next { s with dev := e } ∧ p e
        ∧ (∀ k, k ≠ n → e.dom k = d.dom k) ∧ Dev.chansDiffer { d with doms := e.doms } e
      ((m.st = .locked ∧ (m.lastSeqAt : Rat) + m.fourLines ≤ now) ∨ (m.st = .acquire ∧ m.ltSet = true ∧ (m.lastValidAt : Rat) + m.fourLines ≤ now) →
        goes (.lineWordTimeout n) (fun e => (e.dom n).st = (if m.holdLim = 0 then .freerun else .holdover)
          ∧ (e.dom n).holdAt = (if m.holdLim = 0 then none else some now) ∧ (e.dom n).outs = true ∧ (e.dom n).freq = m.freq ∧ (e.dom n).pos = m.pos ∧ (e.dom n).ltSet = m.ltSet
          ∧ e.tags = d.tags))
      ∧ (∀ a, m.st = .acquire → m.acqAt = some a → a + 1000 * max m.holdLim 1000 ≤ now →
          goes (.acquireTimerExpiry n) (fun e => (e.dom n).st = .freerun ∧ (e.dom n).ltSet = true ∧ (e.dom n).outs = true
            ∧ (m.ltSet = true → (e.dom n).pos = m.pos ∧ (e.dom n).freq = m.freq)
            ∧ (m.ltSet = false → (e.dom n).freq = 0 ∧ (e.dom n).lpf = m.nomLpf)))
      ∧ (∀ a, m.st = .holdover → m.holdAt = some a → a + 1000 * m.holdLim ≤ now →
          goes (.holdoverLimitExpiry n) (fun e => (e.dom n).st = .freerun ∧ (e.dom n).holdAt = none
            ∧ (e.dom n).freq = m.freq ∧ (e.dom n).pos = m.pos ∧ e.tags = d.tags)))
  ∧ (∀ (a : Nat) (s : State), s.dev.live = true →
      let d := s.dev
      let m := d.dom 0
      let p := d.dom 1
      (m.failover = true → m.backAt = some a → a + 1000000 ≤ d.sys.uptime →
        (d.sys.uptime : Rat) ≤ (m.backLast : Rat) + m.fourLines → exec .failoverReturn s
          = .next { s with dev := d.setDom 0 { m with failover := false, backAt := none, lastSeqAt := d.sys.uptime } })
      ∧ (d.tb.pair = true → p.mis = true → p.misAt = some a →
          (a / 1000000 < d.sys.uptime / 1000000 → exec .pairMismatchReport s
            = .next { s with dev := (d.setDom 1 { p with misAt := some d.sys.uptime }).alarmIn 1 0x0109 1 (twos 64 p.misNs) 0 0 })
          ∧ (d.sys.uptime / 1000000 ≤ a / 1000000 → exec .pairMismatchReport s = .next s)))



/-! ### DSYNC and scenes (R39, R189–R205, R238) -/

/-- A qualified edge of DSYNC_N at least 1 ms after the last accepted one resets the phase of all 128 chains (R39,
R238); the next update of every running loop holds its integrators (R239) and estimation windows are discarded
(R248). Any other edge is ignored and counted. -/
def Obligations.DsyncEdgeResetsEveryChain : Prop :=
  ∀ (q : Bool) (s : State), s.dev.live = true →
    let d := s.dev
    let ok : Prop := q = true ∧ ∀ t, d.tb.dsyncAt = some t → t + 1000 ≤ d.sys.uptime
    (¬ok → exec (.dsyncNEdge q) s = .next { s with dev := { d with tb := { d.tb with dsyncIgn := satInc 65535 d.tb.dsyncIgn } } })
    ∧ (ok → ∃ e, exec (.dsyncNEdge q) s = .next { s with dev := e }
        ∧ Dev.reported { d with tb := { d.tb with dsyncAt := some d.sys.uptime }, chains := e.chains, chans := e.chans } e
        ∧ (∀ c, e.chain c = if c < 128 then { d.chain c with resetAt := d.sys.uptime, rstDue := true } else d.chain c)
        ∧ (∀ n, n < 48 → (e.chan n).st = (d.chan n).st ∧ (e.chan n).prot.winBad = true
            ∧ ((d.chan n).st ≠ .disabled → (e.chan n).loop.holdInt = true) ∧ (e.chan n).loop.z1 = (d.chan n).loop.z1)
        ∧ (∀ n, 48 ≤ n → e.chan n = d.chan n) ∧ e.mdt = d.mdt)

/-- The oldest entry of a stream that is in staging, before the staging deadline of the expected frame (R190–R199): a
malformed or late one is discarded and counted; the expected one is resolved into the empty shadow bank and the next
frame is expected; a later frame, and one that finds the bank full, stays in staging. Shown of its records: an
anchor gives the object its stated state and is held (R194), a delta against a held anchor adds its offsets within
the clamps (R195–R197), one of an object of another domain is counted FOREIGN, an unknown kind BAD_RECORD. With the
deadline passed and the frame not in staging it is missed and the next is expected (R199). The bank of a resolved
frame takes effect at the render start of its application block, or late at the next one, counted (R198, R200):
shown for one object's update; at EXPERT level it is ignored and counted; a frame of a refresh period no longer in
force is discarded (R205). Before, nothing happens. -/
def Obligations.SceneFramesFillAndSwitchBanks : Prop :=
  (∀ (r k : Nat) (b : List Nat) (rest : List (List Nat)) (s : State), s.dev.live = true → s.dev.sys.ready = true → r < 4 →
      (s.dev.dom (s.dev.clk r)).ltSet = true → s.dev.sceneRing r = some k → (s.dev.ring k).staged = b :: rest →
      (s.dev.pastStaging r = false ∨ s.dev.frameStaged r = true) →
      let d := s.dev
      let st := d.stream r
      let f := fld b 0 4
      let a := (b.drop 64).take (fld b 10 2)
      let n := fld a 1 1
      let bad := d.badFrame r (d.pAt r (d.appBlk r f)) b
      let counts : Dev → Stream → Prop := fun e x => e = { d with rings := e.rings, streams := e.streams } ∧ e.stream r = x
        ∧ e.ring k = { d.ring k with staged := rest, cntB := satInc 65535 (d.ring k).cntB }
      ∃ e, exec (.sceneFrameParse r .own) s = .next { s with dev := e }
        ∧ (bad = true → counts e { st with badFrame := satInc (2 ^ 32 - 1) st.badFrame })
        ∧ (bad = false → d.lateFrame r f = true → counts e { st with lateDrop := satInc (2 ^ 32 - 1) st.lateDrop })
        ∧ (bad = false → d.lateFrame r f = false → (f ≠ st.expect ∨ st.shadowFor ≠ none) → e = d)
        ∧ (bad = false → d.lateFrame r f = false → f = st.expect → st.shadowFor = none →
            (e.ring k).staged = rest ∧ (e.stream r).shadowFor = some f ∧ (e.stream r).shadowP = fld b 7 1
            ∧ (e.stream r).expect = (f + 1) % rateMod (d.dom (d.clk r)).rate
            ∧ (fld b 8 2 = 0 → (e.stream r).shadow = [] ∧ e.objs = d.objs)
            ∧ (fld b 8 2 = 1 → fld a 0 1 = 1 → 16 ≤ a.length → (d.obj n).dom = r → -30720 ≤ fldS a 2 2 → fldS a 2 2 ≤ 3072 →
                (e.stream r).shadow = [{ obj := n, x := fldS a 4 4, y := fldS a 8 4, z := fldS a 12 4,
                                         gain := fldS a 2 2, count := 1 }]
                ∧ (e.obj n).cur = some { gen := fld b 4 2, x := fldS a 4 4, y := fldS a 8 4, z := fldS a 12 4 })
            ∧ (∀ w, fld b 8 2 = 1 → fld a 0 1 = 2 → 12 ≤ a.length → (d.obj n).dom = r → (d.obj n).anchorOf (fld a 2 2) = some w →
                (e.stream r).shadow = [{ obj := n, x := clamp32 (w.x + fldS a 4 2), y := clamp32 (w.y + fldS a 6 2),
                                         z := clamp32 (w.z + fldS a 8 2), gain := clampGain (fldS a 10 2), count := 1 }])
            ∧ (fld b 8 2 = 1 → fld a 0 1 = 1 → 16 ≤ a.length → (d.obj n).dom ≠ r →
                (e.stream r).shadow = [] ∧ e.objs = d.objs ∧ (e.stream r).foreign = satInc (2 ^ 32 - 1) st.foreign)
            ∧ (fld b 8 2 = 1 → fld a 0 1 = 0 →
                (e.stream r).shadow = [] ∧ e.objs = d.objs ∧ (e.stream r).badRec = satInc (2 ^ 32 - 1) st.badRec)))
  ∧ (∀ (r : Nat) (s : State), s.dev.live = true → r < 4 → s.dev.renders r = true → s.dev.sys.ready = true →
      let d := s.dev
      let st := d.stream r
      let blk := (d.dom (d.clk r)).blk
      let md := rateMod (d.dom (d.clk r)).rate
      (st.en = true → d.appBlk r st.expect < (d.dom r).nextBlk + 3 * blk → d.frameStaged r = false →
        exec (.sceneFrameMissed r) s
          = .next { s with dev := d.setStream r { st with expect := (st.expect + 1) % md, missed := satInc (2 ^ 32 - 1) st.missed } })
      ∧ ((st.en = false ∨ (d.dom r).nextBlk + 3 * blk ≤ d.appBlk r st.expect ∨ d.frameStaged r = true) →
          exec (.sceneFrameMissed r) s = .next s)
      ∧ (∀ f, st.shadowFor = some f → (d.dom r).nextBlk < d.appBlk r f → exec (.sceneBankSwitch r) s = .next s)
      ∧ ∀ f u, st.shadowFor = some f → d.appBlk r f ≤ (d.dom r).nextBlk → st.shadowMin ≤ (d.dom r).nextBlk →
          st.shadow = [u] → st.undo = [] →
          (st.shadowP = st.p →
            ∃ e, exec (.sceneBankSwitch r) s = .next { s with dev := e }
              ∧ e = { d with objs := e.objs, ctxs := e.ctxs, streams := e.streams }
              ∧ e.stream r = { st with
                  shadow := [], shadowFor := none, applied := satInc (2 ^ 32 - 1) st.applied,
                  lateApply := if d.appBlk r f < (d.dom r).nextBlk then satInc (2 ^ 32 - 1) st.lateApply else st.lateApply }
              ∧ (e.obj u.obj).x = u.x ∧ (e.obj u.obj).y = u.y ∧ (e.obj u.obj).z = u.z ∧ (e.obj u.obj).gain = u.gain
              ∧ ((d.obj u.obj).expert = true → e.ctxs = d.ctxs
                  ∧ (e.obj u.obj).basicIgn = satAdd (2 ^ 32 - 1) (d.obj u.obj).basicIgn u.count))
          ∧ (st.shadowP ≠ st.p →
            ∃ e, exec (.sceneBankSwitch r) s = .next { s with dev := e }
              ∧ e = { d with streams := e.streams, rings := e.rings }
              ∧ e.stream r = { st with shadow := [], shadowFor := none, badFrame := satInc (2 ^ 32 - 1) st.badFrame,
                                       missed := satInc (2 ^ 32 - 1) st.missed }))



/-! ### Diagnostics (R284–R301) -/

/-- A disturbed window whose wait has lasted 1 s is measured again whether or not the cause is gone (R289); earlier it
waits on. An electrical test of one channel ends once its stimulus has run its schedule and every window stands
measured (R287–R292): the channel is free again and the command DONE with OK, a DIAG_RUN sets DCLASS by R290,
DIAG_TONES leaves it; a failed test leaves DCLASS and ends with HW_FAULT. ACOUSTIC's last output ends in the same
way once stimulus and capture have run, and never touches DCLASS (R300). While the schedule runs nothing happens.
Shown for a command that waits for this channel alone and gives no result buffer. -/
def Obligations.TestsEndAndAreRepeated : Prop :=
  (∀ (n a : Nat) (s : State), s.dev.live = true → (s.dev.chan n).diag.waitAt = some a →
      let d := s.dev
      let c := d.chan n
      (d.sys.uptime < a + 1000000 → exec (.disturbanceWaitExpiry n) s = .next s)
      ∧ (a + 1000000 ≤ d.sys.uptime → 
          let t : Diag := { c.diag with waitAt := none, pos := none, shift := c.diag.shift + (d.sys.uptime - a) }
          exec (.disturbanceWaitExpiry n) s = .next { s with dev := d.setChan n { c with diag := t } }))
  ∧ (∀ (n : Nat) (mics : List MicMeas) (s : State), s.dev.live = true → n < 48 →
      let d := s.dev
      let c := d.chan n
      let t := c.diag
      let g := d.tag t.tag
      t.ph = .run → t.outAt = none → t.gone = false → t.shut = none →
      let past : Prop := ∃ x, t.time d.sys.uptime = some x ∧ t.length ≤ x
      let alone : Prop := g.st = .active ∧ g.ph = .long ∧ g.drop = false ∧ g.effs = [] ∧ g.outQ = [] ∧ g.rstatus = OK
        ∧ g.waits = 2 ^ n ∧ t.relTags = [] ∧ ∀ h, g.hdr = some h → h.outlen = 0
      let cls := classOf t.meas t.ac t.dc c.prot.pZ (if (d.pr (n / 2)).bridged then 500 else 1000) (Tab.get 255 d.nvm.refClass n)
      (t.kind ≠ 4 →
        (t.failed = false → c.st.on = true → (¬past ∨ t.waitAt ≠ none ∨ t.judged ≠ t.windows.length) →
          exec (.diagTestEnd n .own) s = .next s)
        ∧ (t.failed = false → c.st = .switching → past → t.waitAt = none → t.judged = t.windows.length → alone →
            ∃ e, exec (.diagTestEnd n .own) s = .next { s with dev := e } ∧ (e.chan n).diag.ph = .idle ∧ e.ended t.tag OK
              ∧ (e.chan n).diag.dclass = if t.kind = 1 ∧ cls ≤ 5 then cls else t.dclass)
        ∧ (t.failed = true → alone →
            ∃ e, exec (.diagTestEnd n .own) s = .next { s with dev := e } ∧ (e.chan n).diag.ph = .idle ∧ e.ended t.tag HW_FAULT
              ∧ (e.chan n).diag.dclass = t.dclass))
      ∧ (t.kind = 4 →
        (t.failed = false → c.st.on = true → ¬past → exec (.acousticOutputDone n mics) s = .next s)
        ∧ (d.acou.queue = [] → alone → (t.failed = false ∧ c.st = .switching ∧ past ∨ t.failed = true) →
            ∃ e, exec (.acousticOutputDone n mics) s = .next { s with dev := e } ∧ (e.chan n).diag.ph = .idle
              ∧ e.ended t.tag (if t.failed then HW_FAULT else OK) ∧ (e.chan n).diag.dclass = t.dclass)))


/-- Quiet windows (R296, R297): when one opens the only channel that waits for it and fits it runs its test, one that
does not fit keeps waiting, and while the processor restarts the opening is skipped; when the last open window
closes the mutes of WHEN = 1 are restored. A pilot window ends (R298): one that overlaps a test, a reset or a pause
is discarded and AGE counts it; an incoherent one, whose halves differ by more than 2 % or 1.0°, sets INCOH and
leaves the values; a coherent one brings new values, VALID, AGE 0 and one more in COUNT. The next window begins.
Before its end nothing happens. Its impedance is the voltage sum over the current sum of its SURVEY samples. -/
def Obligations.QuietAndPilotWindowsEnd : Prop :=
  (∀ (k : Nat) (w : QWin) (s : State), s.dev.live = true → s.dev.acou.wins[k]? = some w →
      let d := s.dev
      let opened : Dev := { d with acou := { d.acou with winOpen := d.acou.winOpen ||| 2 ^ k } }
      let closed : Dev := { d with acou := { d.acou with winOpen := d.acou.winOpen - 2 ^ k } }
      (bit d.acou.winOpen k = false → d.winOpenNow w = true →
        ((d.sys.ready = false ∨ d.waiting = []) → exec (.quietWindowOpen k) s = .next { s with dev := opened })
        ∧ (∀ n, d.sys.ready = true → d.waiting = [n] →
            (d.fits n w = false → exec (.quietWindowOpen k) s = .next { s with dev := opened })
            ∧ (d.fits n w = true → (d.chan n).diag.kind ≠ 4 → ∃ e, exec (.quietWindowOpen k) s = .next { s with dev := e }
                ∧ (e.chan n).diag.ph = .run ∧ (e.chan n).diag.since = d.sys.uptime
                ∧ (e.tag (d.chan n).diag.tag).ph = .long ∧ e.acou = opened.acou
                ∧ e = { d with chans := e.chans, chains := e.chains, tags := e.tags, acou := e.acou })))
      ∧ (bit d.acou.winOpen k = true → d.winOpenNow w = false →
          (d.acou.winOpen ≠ 2 ^ k → exec (.quietWindowClose k) s = .next { s with dev := closed })
          ∧ (d.acou.winOpen = 2 ^ k → (∀ n, n < 48 → (d.chan n).diag.relTags = []) → ∃ e, exec (.quietWindowClose k) s = .next { s with dev := e }
              ∧ e = { closed with chans := e.chans }
              ∧ ∀ n, n < 48 → (d.chan n).diag.ph ≠ .idle → (d.chan n).diag.when_ = 1 → (d.chan n).diag.muteSet = true →
                  (e.chan n).mute = (d.chan n).diag.muted)))
  ∧ (∀ (n : Nat) (a b : Demod) (s : State), s.dev.live = true → n < 48 → (s.dev.chan n).diag.pilEn = true →
      (s.dev.chan n).pilotOn = true → (s.dev.chan n).diag.pilAcc = [a, b] →
      let d := s.dev
      let c := d.chan n
      let t := c.diag
      let due := t.pilAt + 3117 + pilotCycles t.pilFreq * 10000000 / max 1 t.pilFreq
      let z := (a.join b).imp
      (d.sys.uptime < due → exec (.pilotWindowEnd n .own) s = .next s)
      ∧ (due ≤ d.sys.uptime →
          ∃ e, exec (.pilotWindowEnd n .own) s = .next { s with dev := e } ∧ d.otherChans e [n] ∧ e.tags = d.tags
            ∧ (e.chan n).diag.pilAt = d.sys.uptime - 3117 ∧ (e.chan n).diag.pilAcc = []
            ∧ (e.chan n).diag.pilBad = !d.tapValid n 3 ∧ (e.chan n).st = c.st
            ∧ (t.pilBad = true → (e.chan n).diag.age = satInc 255 t.age ∧ (e.chan n).diag.zmag = t.zmag
                ∧ (e.chan n).diag.count = t.count ∧ (e.chan n).diag.incoh = t.incoh)
            ∧ (t.pilBad = false → coherent a.imp b.imp = false → (e.chan n).diag.age = satInc 255 t.age
                ∧ (e.chan n).diag.incoh = true ∧ (e.chan n).diag.zmag = t.zmag ∧ (e.chan n).diag.count = t.count)
            ∧ (t.pilBad = false → coherent a.imp b.imp = true → (e.chan n).diag.age = 0 ∧ (e.chan n).diag.incoh = false
                ∧ (e.chan n).diag.valid = true ∧ (e.chan n).diag.count = (t.count + 1) % 65536
                ∧ (e.chan n).diag.zre = sat256 z.1 ∧ (e.chan n).diag.zmag = sat256 (sqrtQ (z.1 * z.1 + z.2 * z.2))
                ∧ (e.chan n).diag.below = decide ((e.chan n).diag.zmag < t.wlo)
                ∧ (e.chan n).diag.above = (decide (t.whi ≠ 0) && decide (t.whi < (e.chan n).diag.zmag)))))



/-! ### Ports and microphones (R302–R322) -/

/-- A start period of a port (R303–R307), shown where no command waits: an enabled port that is UNLOCKED locks with it
once its domain has left ACQUIRE and the frame's sample is not before the one from which it was enabled; a locked
controller port moves its receive and transmit counts on by one frame; a target port's frame of the wrong length is
counted, the fourth in a row unlocks it (R305, R314). An OFF port takes no notice. A locked target port unlocks,
counted (R305), when its bit clock is missing for 10 µs, its frame sync for four frames, or its rate lies more than
200 ppm off; a rate within that is kept for PPB. A non-audio mute that has seen no preamble for 341.3 ms lets its
two slots wait for their crossings (R318). Microphones (R17, R321): 1,024 identical bits make one of the active ones
faulty, with one event and Mordant record; a second without such a run clears the mark and closes the event; after
50 ms the chain delivers data. -/
def Obligations.PortFramesTimersAndMicrophones : Prop :=
  (∀ (p periods ns : Nat) (din : List Bool) (s : State), s.dev.live = true → p < 4 → s.dev.tags = [] →
      (s.dev.port p).maskNext = none → (s.dev.port p).role = 0 ∨ (s.dev.port p).role = 1 ∧ s.dev.ctrlOk (s.dev.port p).dom = true →
      let d := s.dev
      let t := d.port p
      let early : Prop := (d.dom t.dom).st = .disabled ∨ (d.dom t.dom).st = .acquire ∨ ceilN (d.rxPos p ns) < t.onSc
      let fault : Prop := t.role = 0 ∧ periods ≠ t.slots * t.width
      (t.st = .off → exec (.tdmFrame p periods din ns) s = .next s)
      ∧ (t.st = .unlocked → early → t.role = 0 →
          exec (.tdmFrame p periods din ns) s = .next { s with dev := d.setPort p { t with lastAt := d.sys.uptime } })
      ∧ ((t.st = .locked ∨ t.st = .unlocked ∧ ¬early) →
          ∃ e, exec (.tdmFrame p periods din ns) s = .next { s with dev := e } ∧ (e.port p).lastAt = d.sys.uptime
            ∧ ((t.group = 0 ∨ t.role = 1) → ∀ q, q ≠ p → e.port q = d.port q)
            ∧ (t.st = .unlocked → (e.port p).st = .locked)
            ∧ (t.role = 1 → t.st = .locked → (e.port p).st = .locked ∧ (e.port p).nextSc = t.nextSc + 1
                ∧ (e.port p).txNext = t.txNext + 1)
            ∧ (¬fault → (e.port p).frameErr = t.frameErr)
            ∧ (fault → (e.port p).frameErr = satInc (2 ^ 32 - 1) t.frameErr)
            ∧ (fault → t.st = .locked → t.errRun = 3 → (e.port p).st = .unlocked)
            ∧ (t.st = .locked → (¬fault ∨ t.errRun < 3) → (e.port p).st = .locked)))
  ∧ (∀ (p : Nat) (s : State), s.dev.live = true → p < 4 →
      let d := s.dev
      let t := d.port p
      let unlocks : Instr → Prop := fun i => ∃ e, exec i s = .next { s with dev := e } ∧ (e.port p).st = .unlocked
        ∧ (e.port p).unlocks = satInc 65535 t.unlocks ∧ (e.port p).held = [] ∧ (e.port p).en = t.en
        ∧ (∀ q, q ≠ p → e.port q = d.port q) ∧ e.chans = d.chans ∧ e.tags = d.tags
      (t.st = .locked → t.role ≠ 1 →
        (t.lastAt + 10 ≤ d.sys.uptime → unlocks (.bclkTimeout p))
        ∧ (t.lastAt + 4000000 / (d.portClk p).fs ≤ d.sys.uptime → unlocks (.fsyncTimeout p))
        ∧ (t.rateAt + 100000 ≤ d.sys.uptime →
            (200000 < (d.ratePpb p).natAbs → unlocks (.rateIntervalEnd p .own))
            ∧ ((d.ratePpb p).natAbs ≤ 200000 →
                let u : TPort := { t with ppb := d.ratePpb p, rateAt := d.sys.uptime, rateT0 := t.rateT1, rateN := 0 }
                exec (.rateIntervalEnd p .own) s = .next { s with dev := d.setPort p u })))
      ∧ ∀ pr, pr < 16 → bit t.nonaudio pr = true → Tab.get 0 t.preAt pr + 341333 ≤ d.sys.uptime → t.st = .locked →
          (t.gate (2 * pr)).st = .muted → (t.gate (2 * pr + 1)).st = .muted →
          ∃ e, exec (.nonaudioRelease p pr) s = .next { s with dev := e } ∧ e = d.setPort p (e.port p)
            ∧ ((e.port p).gate (2 * pr)).st = .waitIn ∧ ((e.port p).gate (2 * pr + 1)).st = .waitIn
            ∧ (∀ k, k ≠ 2 * pr → k ≠ 2 * pr + 1 → (e.port p).gate k = t.gate k))
  ∧ (∀ (m : Nat) (s : State), s.dev.live = true →
      let d := s.dev
      let x := d.mic m
      let bad : Dev := d.setMic m { x with faulty := true, stuckAt := some d.sys.uptime }
      (m < 32 → bit d.pdm.mask m = true → exec (.micStuckDetect m) s
        = .next { s with dev := if x.faulty then bad else bad.alarmIn d.tb.master 0x0404 m 0 1 0 })
      ∧ (∀ a, x.stuckAt = some a → x.faulty = true → a + 1000000 ≤ d.sys.uptime → exec (.micFaultClear m) s
          = .next { s with dev := (d.setMic m { x with faulty := false, stuckAt := none }).raiseIn d.tb.master 0x0404 m 0 4 })
      ∧ (x.settle ≠ 0 → x.settle ≤ d.sys.uptime → exec (.micSettleEnd m) s = .next { s with dev := d.setMic m { x with settle := 0 } }))


/-! ### Resets, supplies, clocks, power states (R369–R380) -/

/-- PERST_N resets everything but the two-wire port, the ECC counts, the temperatures of the thermal models (R246; log
entry 76), the non-volatile memories and the level of
VERM_IN_N (R370, R371); a pulse below 1 µs is counted only. Its release takes effect at once with a reference and no
power-on reset, which starts the boot with EPOCH 1 (R120, R373); else it waits (R372, R380). A logic rail out of its
range, or VDD_3V3 below 3.0 V for 100 µs, asserts the power-on reset (R354, R369): everything is reset but the
non-volatile memories, and the failed supply is kept for the next POWER_ON record. When it is released a power cycle
begins: the cycle count rises, the ADDR pins are sampled, uptime is 0 and, PERST_N high, EPOCH is 1. -/
def Obligations.ResetsStartBootAndPowerCycle : Prop :=
  (∀ s : State,
      let d := s.dev
      (d.live = true → exec (.perstNAssert false) s
        = .next { s with dev := { d with tb := { d.tb with perstIgn := satInc (2 ^ 32 - 1) d.tb.perstIgn } } })
      ∧ (d.live = true → ∃ t, exec (.perstNAssert true) s = .next t ∧ t.pending = s.pending ∧ t.locks = Locks.reset ∧ t.win = []
          ∧ t.dev.sys.perst = true ∧ t.dev.sys.ready = false ∧ t.dev.sys.uptime = d.sys.uptime ∧ t.dev.sys.epoch = d.sys.epoch
          ∧ t.dev.tw = d.tw ∧ t.dev.sbe = d.sbe ∧ t.dev.emg.verm = d.emg.verm ∧ t.dev.link = Link.reset
          ∧ (∀ n, let p := (d.chan n).prot
              t.dev.chan n = { Chan.reset with prot := { Prot.reset with tc := p.tc, tm := p.tm, tf := p.tf, ta := p.ta } })
          ∧ t.dev.doms = [] ∧ t.dev.tags = [] ∧ t.dev.rings = [] ∧ t.dev.mbxs = [] ∧ t.dev.fns = []
          ∧ t.dev.objs = [] ∧ t.dev.ctxs = [] ∧ t.dev.ports = [] ∧ t.dev.chains = [] ∧ t.dev.faults = []
          ∧ t.dev.nvm.ownerKey = d.nvm.ownerKey ∧ t.dev.nvm.env = d.nvm.env)
      ∧ (d.sys.perst = true → (d.sys.por = true ∨ d.sys.refOk = false) → exec .perstNRelease s
          = .next { s with dev := { d with sys := { d.sys with perstWait := true } } })
      ∧ (d.sys.perst = true → d.sys.por = false → d.sys.refOk = true → ∃ e, exec .perstNRelease s = .next { s with dev := e }
          ∧ e.sys.perst = false ∧ e.sys.epoch = 1 ∧ e.sys.relAt = d.sys.uptime ∧ e.chans = d.chans ∧ e.tags = d.tags))
  ∧ (∀ s : State,
      let d := s.dev
      let down : State → Prop := fun t => t.pending = s.pending ∧ t.locks = Locks.reset ∧ t.win = [] ∧ t.dev.sys.por = true
        ∧ t.dev.sys.uptime = 0 ∧ t.dev.sys.ready = false ∧ t.dev.chans = [] ∧ t.dev.tags = [] ∧ t.dev.rings = [] ∧ t.dev.doms = []
        ∧ t.dev.tw = Tw.reset ∧ t.dev.nvm.failRec = d.sys.v3Low.isSome ∧ t.dev.nvm.ownerKey = d.nvm.ownerKey
        ∧ t.dev.nvm.ring = d.nvm.ring
      (d.sys.por = false → ∃ t, exec .logicRailFault s = .next t ∧ down t)
      ∧ (∀ a, d.sys.por = false → d.sys.v3Low = some a → a + 100 ≤ d.sys.uptime → ∃ t, exec .powerFailTimeout s = .next t ∧ down t)
      ∧ ∀ pins, d.sys.por = true → ∃ e, exec (.powerOnReset pins) s = .next { s with dev := e }
          ∧ e.sys.por = false ∧ e.sys.uptime = 0 ∧ e.sys.refOk = true ∧ e.nvm.cycles = (d.nvm.cycles + 1) % 2 ^ 32
          ∧ e.tw = { d.tw with pins := pins % 8 } ∧ (d.sys.perst = false → e.sys.epoch = 1) ∧ e.chans = d.chans)

/-- The 25 MHz reference (R377): its loss unlocks both PLLs and is recorded; 10 ms after its return they relock, the
hold ends and channels resume. A power state transition ends (R378, R379): STANDBY and SLEEP hold every channel once
all have ramped down, ACTIVE lets them resume, and POWER_STATE is DONE. -/
def Obligations.ReferenceAndPowerStatesHoldChannels : Prop :=
  ∀ s : State, s.dev.live = true →
    let d := s.dev
    let y := d.sys
    (y.refOk = true → ∃ e, exec .refClockLoss s = .next { s with dev := e }
      ∧ e.sys = { y with refOk := false, spll := false, apll := false, refLostAt := some y.uptime }
      ∧ Dev.chansDiffer { d with sys := e.sys } e ∧ e.tags = d.tags ∧ (∀ n, (e.chan n).st = (d.chan n).st))
    ∧ (y.refOk = false → ∃ e, exec .refClockRestore s = .next { s with dev := e }
        ∧ e.sys = { y with refOk := true, spll := true, apll := decide (y.pstate ≠ 2 ∧ y.pstate ≠ 4), refLostAt := none, refHold := false }
        ∧ Dev.chansDiffer { d with sys := e.sys } e ∧ d.resumes e)
    ∧ ∀ t, y.pTag = some t → y.pQueue = [] → (y.pGoal = 0 ∨ d.rampedDown = true) → (d.tag t).st = .active → (d.tag t).drop = false → (d.tag t).outQ = [] →
        (∀ n, n < 48 → (d.chan n).stopTags = [] ∧ (d.chan n).idTag = none) →
        ∃ e, exec .powerStateTransitionEnd s = .next { s with dev := e } ∧ e.sys.pstate = y.pGoal
          ∧ e.sys.pHold = decide (y.pGoal ≠ 0) ∧ e.sys.pTag = none ∧ e.ended t OK
          ∧ (y.pGoal ≠ 0 → ∀ n, n < 48 → (e.chan n).st.on = false) ∧ (y.pGoal = 0 → d.resumes e)


/-! ### The control processor (R16, R120, R121, R342–R349, R410) -/

/-- A restart (R16, R107, R120, R342): 250 ms without service ask for one; it advances EPOCH, leaves the receiver down,
releases the internal master's locks and no other, and returns TAKEN notices to QUEUED. Ready after a boot or
restart (R100, R121, R343, R344, R349): every ACTIVE command that does not survive ends with RESET_DISCARD, every
notice is acknowledged so, the receiver is up and no flywheel mute is left; a boot loader whose own signature fails
stays in reset. Without a boot after 2.0 s the flywheel mutes every SWITCHING channel; 60 s of running prove the
image; once in each uptime second, shown where the
render counts of the last one stand, the mirror is copied. The end of a flash write (R155): STAGE keeps the header that
the region then has and OWNER_KEY the key, and the command is DONE with OK; a write that its read-back check refuses
ends with HW_FAULT and stores no key. -/
def Obligations.RestartsBootAndFlashComplete : Prop :=
  (∀ s : State, s.dev.live = true →
      let d := s.dev
      (d.sys.bootFail = false → exec .watchdogExpiry s = .next { s with dev := { d with restartReq := some 0, restartTag := none } })
      ∧ (d.restartReq = none → exec .processorRestart s = .next s)
      ∧ ∀ c, d.restartReq = some c → d.restartDue = true → ∃ t, exec .processorRestart s = .next t
          ∧ t.pending = s.pending ∧ t.win = s.win ∧ t.dev.sys.epoch = (if d.sys.epoch = 0xFFFFFFFF then 1 else d.sys.epoch + 1)
          ∧ t.dev.sys.ready = false ∧ t.dev.sys.fw = 0 ∧ t.dev.restartReq = none ∧ t.dev.nonce = none
          ∧ (∀ n, n < 32 → t.locks.who n = if s.locks.who n = 1 then 0 else s.locks.who n)
          ∧ (∀ ch, ch < 64 → ∀ x ∈ (t.dev.mbx ch).fifo, x.st = .queued))
  ∧ (∀ s : State, s.dev.live = true →
      let d := s.dev
      let y := d.sys
      (y.ready = false → y.bootFail = false → d.restartReq = none →
        exec (.processorReady false) s = .next { s with dev := { d with sys := { y with bootFail := true, phase := 8, image := 3 } } }
        ∧ ∃ e, exec (.processorReady true) s = .next { s with dev := e } ∧ e.sys.ready = true
          ∧ (y.recovery = false → e.sys.flyMute = 0 ∧ e.sys.flyStart = none ∧ e.sys.provenAt = some y.uptime
              ∧ e.sys.fw = (d.nvm.img y.image).version)
          ∧ (∀ n, (d.tag n).st = .active → (d.tag n).survives = false → (d.tag n).drop = false → e.ended n RESET_DISCARD)
          ∧ (∀ ch, ch < 64 → (e.mbx ch).fifo = []))
      ∧ (∀ a, y.flyStart = some a → y.flyDone = false → a + 2000000 ≤ y.uptime →
          let mask := listMask ((List.range 48).filter (fun n => (d.chan n).st = .switching))
          ∃ e, exec .flywheelLimit s = .next { s with dev := e } ∧ e.sys = { y with flyDone := true, flyMute := mask }
            ∧ Dev.chansDiffer { d with sys := e.sys } e ∧ e.tags = d.tags
            ∧ (∀ n, (e.chan n).st = (d.chan n).st) ∧ (∀ n, n < 48 → bit mask n = true → (d.chan n).stop ≠ .ramp → (e.chan n).aux.dst = 0))
      ∧ (∀ a, y.provenAt = some a → a + 60000000 ≤ y.uptime → exec .imageProven s
          = .next { s with dev := { d with
              nvm := { d.nvm with trial := d.nvm.trial && decide (y.image ≠ d.nvm.select),
                                  floor := max d.nvm.floor (d.nvm.img y.image).floor },
              sys := { y with provenAt := none } } })
      ∧ (y.ready = true → y.recovery = false → d.mirSec ≠ some (y.uptime / 1000000) → y.uptime < d.rend.shortAt + 1000000 →
          exec .mirrorCopy s
          = .next { s with dev := { d with mirror := d.mirrorBytes ((d.mirSeq + 2) % 2 ^ 32), mirSeq := (d.mirSeq + 2) % 2 ^ 32,
                                           mirSec := some (y.uptime / 1000000) } }))
  ∧ (∀ (n : Nat) (hdr : ImgHdr) (good : Bool) (s : State), s.dev.live = true → s.dev.sys.ready = true →
      (s.dev.tag n).st = .active → (s.dev.tag n).ph = .ending → (s.dev.tag n).waits = 0 → (s.dev.tag n).drop = false →
      (s.dev.tag n).outQ = [] →
      let d := s.dev
      ∃ e, exec (.flashWriteDone n hdr good) s = .next { s with dev := e } ∧ d.otherTags e n
        ∧ (∀ a b c f, (d.tag n).cmd = some (.stage a b c f) → e.ended n (if good then OK else HW_FAULT)
            ∧ (e.nvm.img (d.region a)).hdr = some hdr ∧ e = { d with nvm := e.nvm, tags := e.tags, dones := e.dones })
        ∧ (∀ k x, (d.tag n).cmd = some (.ownerKey k x) → e.ended n (if good then OK else HW_FAULT)
            ∧ e.nvm.ownerKey = (if good then some k else d.nvm.ownerKey)))


/-! ### The two-wire port (R325–R337) -/

/-- The two-wire target (R326–R337): an awake port acknowledges its own address, ignores another's, and asleep notes the
wake; the two pointer bytes come first; a byte of the sideband window is stored at once and the pointer wraps within
its page; a read answers one byte and moves the pointer on; STOP ends the transfer and discards a word begun. Stuck
lines and sleep (R334–R337): a stretch at its limit and a line stuck for 25 ms reset the port's transfer, set their
TW_STAT bit and count; the controller reads 0xFF for the byte that a stretch abandons; a read whose clock stands
still is suspended and ends with SDA_HELD at the next pulse; in SLEEP the port sleeps again 100 ms after a STOP, and
a woken port becomes awake. Everything but the port and reports stays. STOP and the stuck lines are shown where no
part of MBX_DB has been written. -/
def Obligations.TwoWireTransfersAndFaults : Prop :=
  let plain : Dev → Prop := fun d => ∀ p v l, d.tw.word = (p, v) :: l → p < 0xFC0 ∨ 0xFC8 ≤ p
  (∀ (b : Nat) (s : State), b < 256 → s.dev.live = true →
      let d := s.dev
      let w := d.tw
      let moved : Tw := { w with snap := w.snap.drop 1, ptr := (w.ptr + 1) % 65536, first := false, live := w.live && decide ((w.ptr + 1) % 4 ≠ 0) }
      (∀ read, w.awake = true → w.word = [] → w.pins < 8 →
          ∃ e, exec (.twAddress (0x58 + w.pins) read) s = .next { s with dev := e } ∧ e = { d with tw := e.tw }
            ∧ e.tw.x = (if read then .read else .ptrHi) ∧ e.tw.ack = true ∧ e.tw.ptr = w.ptr ∧ e.tw.suspended = false ∧ e.tw.snap = [])
      ∧ (∀ a read, a < 128 → w.addr2 = 0 → a ≠ 0x58 + w.pins → w.word = [] →
          ∃ e, exec (.twAddress a read) s = .next { s with dev := e } ∧ e = { d with tw := e.tw } ∧ e.tw.x = .ignore ∧ e.tw.ack = false)
      ∧ (∀ read, w.awake = false → w.waking = false → w.pins < 8 → w.word = [] →
          ∃ e, exec (.twAddress (0x58 + w.pins) read) s = .next { s with dev := e } ∧ e = { d with tw := e.tw }
            ∧ e.tw.x = .ignore ∧ e.tw.waking = true ∧ e.tw.wakes = satInc 255 w.wakes)
      ∧ (w.x = .ptrHi → exec (.twWriteByte b) s
          = .next { s with dev := { d with tw := { w with ptr := b * 256 + w.ptr % 256, x := .ptrLo, ack := true } } })
      ∧ (w.x = .ptrLo → exec (.twWriteByte b) s
          = .next { s with dev := { d with tw := { w with ptr := w.ptr / 256 * 256 + b, x := .write, ack := true } } })
      ∧ (w.x = .write → w.word = [] → 0x2000 ≤ w.ptr → w.ptr < 0x2100 → ∃ t, exec (.twWriteByte b) s = .next t
          ∧ t.pending = s.pending ∧ t.locks = s.locks
          ∧ t.dev = { d with tw := { w with ptr := if w.ptr % 32 = 31 then w.ptr - 31 else w.ptr + 1, ack := true } }
          ∧ (∀ a, Memory.read t.win a = if a = w.ptr - 0x2000 then BitVec.ofNat 8 b else Memory.read s.win a))
      ∧ (w.x = .read → w.suspended = false → ∀ v l, w.snap = v :: l → exec .twReadByte s
          = .next { s with dev := { d with lastRead := [v], tw := moved } })
      ∧ (plain d → ∃ e, exec .twStop s = .next { s with dev := e } ∧ e = { d with tw := e.tw } ∧ e.tw.x = .idle ∧ e.tw.word = []
          ∧ e.tw.stopAt = d.sys.uptime ∧ e.tw.ptr = w.ptr
          ∧ e.tw.partials = if w.word = [] then w.partials else satInc 255 w.partials))
  ∧ (∀ s : State, s.dev.live = true → plain s.dev →
      let d := s.dev
      let w := d.tw
      let ends : Instr → List Nat → (Tw → Prop) → Prop := fun i l p => ∃ e, exec i s = .next { s with dev := e }
        ∧ Dev.reported { d with tw := e.tw, lastRead := l } e ∧ e.tw.x = .ignore ∧ e.tw.word = [] ∧ e.tw.suspended = false ∧ p e.tw
      ends .stretchTo (if w.x = .read then [255] else d.lastRead) (fun t => t.stretchTo = true ∧ t.stretches = satInc 255 w.stretches ∧ t.ptr = 0)
      ∧ ends .sclStuck d.lastRead (fun t => t.sclStuck = true ∧ t.stucks = satInc 255 w.stucks ∧ t.ptr = w.ptr)
      ∧ (∀ driving, ends (.sdaStuck driving) d.lastRead (fun t => t.sdaStuck = true ∧ t.holder = driving ∧ t.stucks = satInc 255 w.stucks))
      ∧ (w.x = .read → exec .twSuspend s = .next { s with dev := { d with tw := { w with suspended := true } } })
      ∧ (w.suspended = true → ends .sdaHeld d.lastRead (fun t => t.sdaHeld = true))
      ∧ (d.sys.pstate = 2 → w.awake = true → w.x = .idle → w.stopAt + 100000 ≤ d.sys.uptime → exec .twSleepTimeout s
          = .next { s with dev := { d with tw := { w with awake := false, waking := false } } })
      ∧ (w.waking = true → exec .twWakeReady s
          = .next { s with dev := { d with tw := { w with awake := true, waking := false, stopAt := d.sys.uptime } } }))


/-! ### Ramcen commands: acceptance, checks, schedule (R110–R119) -/

/-- Any of the 74 commands (R115): a tag outside its sender's range gives NOT_PERMITTED and one that is not FREE gives
BUSY, in a record without a tag; no tag and nothing else changes. While the processor is down, or where the
descriptor cannot come from, nothing happens (R16). -/
def Obligations.CommandsNeedFreeTagOfTheirSender : Prop :=
  ∀ (i : Instr) (h : Hdr) (c : Cmd) (s : State), i.ramcen = some (h, c) → s.dev.live = true → s.dev.noneWaits →
    let d := s.dev
    let own := ownTag (d.senderOf h.via) h.tag
    let refused : Nat → Prop := fun status => s.runs i (fun e => ∃ x : Tless, e = { d with tless := d.tless ++ [x] }
      ∧ x.tag = h.tag ∧ x.status = status ∧ x.opcode = Cmd.op c)
    ((d.sys.ready = false ∨ d.arrives h.via = false) → exec i s = .next s)
    ∧ (d.sys.ready = true → d.arrives h.via = true →
        (own = false → refused NOT_PERMITTED) ∧ (own = true → (d.tag h.tag).st ≠ .free → refused BUSY))

/-- A command that fails a check ends with that check's status, LT and RESULT zero, and has no other effect (R116,
R119): the checks of sender, lengths and pointers, the element count, an authorised command's signature
(NOT_PERMITTED; its nonce is used up and AUTH_FAIL raised, R155), values and states, and a disable that covers it
(CANCELLED and counted, R123). -/
def Obligations.FailedChecksLeaveNoEffect : Prop :=
  ∀ (i : Instr) (h : Hdr) (c : Cmd) (s : State), i.ramcen = some (h, c) → s.dev.takesUp h →
    let d := s.dev
    let early := (d.takeTag h (Cmd.op c)).early h (Cmd.op c)
    let counted := countOk (Cmd.op c) h.plen (Cmd.count c)
    let x := d.entered h c
    let a := x.authorise c 0
    let clean : Prop := early = none ∧ counted = true ∧ x.blocked h.tag = false
    (∀ st, early = some st → s.runs i (fun e => d.turnedAway e h st))
    ∧ (early = none → counted = false → s.runs i (fun e => d.turnedAway e h BAD_LENGTH))
    ∧ (clean → a.2 = false → s.runs i (fun e => ∃ y, Dev.reported { d with nonce := none } y
        ∧ (y.fn 0).evtSeq = ((d.fn 0).evtSeq + 1) % 65536 ∧ y.turnedAway e h NOT_PERMITTED))
    ∧ (clean → a.2 = true → ∀ st, a.1.refuse h.tag h c = some st →
        s.runs i (fun e => Dev.turnedAway { d with nonce := a.1.nonce } e h st))
    ∧ (clean → a.2 = true → a.1.refuse h.tag h c = none → ∀ k, a.1.swept h.tag c = some k →
        s.runs i (fun e => e.ended h.tag CANCELLED ∧ (∀ m, m ≠ h.tag → m ≠ k → e.tag m = d.tag m)
          ∧ e.tag k = { d.tag k with cancels := satAdd 65535 (d.tag k).cancels 1 }
          ∧ e = { d with nonce := a.1.nonce, tags := e.tags, accepts := d.accepts + 1, dones := d.dones + 1 }))

/-- A command that passes its checks and does not act at once is scheduled (R118): stamped, or ASAP in running domains.
Its tag stays ACTIVE with an effective sample for each domain it changes, and acceptance has no other effect. Tests
and the stop of a pilot are left to the diagnostics statements. -/
def Obligations.ScheduledCommandsWaitForTheirSample : Prop :=
  ∀ (i : Instr) (h : Hdr) (c : Cmd) (s : State), i.ramcen = some (h, c) → s.dev.passes h c → authOf c 0 = none →
    (Cmd.testOf c).isNone = true → Cmd.mom c ≠ .dis → (∀ k, c ≠ .ringDestroy k) → s.dev.domsOf c ≠ [] →
    let d := s.dev
    (h.atLt = true ∧ Cmd.disables c = [])
      ∨ (h.atLt = false ∧ Cmd.mom c ≠ .a ∧ Cmd.disables c = [] ∧ ∀ r ∈ d.domsOf c, (d.dom r).st ≠ .disabled) →
    s.runs i (fun e => e = { d with tags := e.tags, accepts := d.accepts + 1 } ∧ d.otherTags e h.tag
      ∧ (e.tag h.tag).st = .active ∧ (e.tag h.tag).ph = .sched ∧ (e.tag h.tag).done = []
      ∧ (e.tag h.tag).effs = (d.domsOf c).map (fun r => (r, (d.effOf h r).1)))

/-- System and timebase commands act at acceptance (R136–R140, R25, R29, R31, R40, R98, R418). GET_INFO answers version,
image and revision; GET_SUMMARY waits for the next block period; CANCEL ends its target; TB_RATE, TB_TIMING,
TB_DPLL, TB_CLOCKMASTER, TB_PAIR, MBX_CONFIG and TW_CONFIG set their values; TB_ENABLE leads a DISABLED domain into
ACQUIRE, and a running one towards its disable; RESTART asks for the restart that follows; POWER_STATE starts a
transition or waits for the one under way. -/
def Obligations.SystemCommandsActAtAcceptance : Prop :=
  ∀ (h : Hdr) (s : State),
    let d := s.dev
    let now : Cmd → Prop := fun c => d.actsNow h c
    (now .getInfo → d.sys.recovery = false →
      (h.outlen = 0 → s.runs (.getInfo h) (fun e => d.acted e d h (d.sys.fw + d.sys.image % 2 * 2 ^ 32 + 0x11 * 2 ^ 40)))
      ∧ (d.writesOut h → s.runs (.getInfo h) (fun e =>
          d.acted e { d with out := e.out, link := e.link, trn := e.trn } h (d.sys.fw + d.sys.image % 2 * 2 ^ 32 + 0x11 * 2 ^ 40)
          ∧ d.wrote e h d.identity)))
    ∧ (now .getSummary → s.runs (.getSummary h) (fun e => e = { d with tags := e.tags, accepts := d.accepts + 1 }
        ∧ d.otherTags e h.tag ∧ (e.tag h.tag).st = .active ∧ (e.tag h.tag).ph = .sched ∧ (e.tag h.tag).effs = []))
    ∧ (∀ t, now (.cancel t) → s.runs (.cancel h t) (fun e => e.ended h.tag OK
        ∧ ((∀ n, n < 48 → (d.chan n).diag.relTags = []) → ∀ m, m ≠ h.tag → m ≠ t → e.tag m = d.tag m)
        ∧ ((d.tag t).uncommitted = true → (d.tag t).drop = false → e.ended t CANCELLED ∧ (e.tag t).result = 0)
        ∧ ((d.tag t).uncommitted = false → e.tag t = { d.tag t with cancelAt := true }
            ∧ e = { d with tags := e.tags, accepts := d.accepts + 1, dones := d.dones + 1 })
        ∧ e.doms = d.doms ∧ e.objs = d.objs ∧ e.ports = d.ports))
    ∧ (∀ n r x l, now (.tbRate n r x l) → s.runs (.tbRate h n r x l) (fun e => d.acted e
        (d.setDom n { d.dom n with rate := r, dbl := decide (x = 1), nomLpf := l, expert := false, bw := 20, bwNext := none }) h 0))
    ∧ (∀ n, now (.tbEnable n 1) → (d.dom n).st = .disabled → d.tb.pair = true → n = 1 → (d.dom 0).st ≠ .disabled →
        s.runs (.tbEnable h n 1) (fun e => e.ended h.tag OK ∧ d.otherTags e h.tag ∧ (e.dom 1).st = (d.dom 0).st
          ∧ (e.dom 1).outs = (d.dom 0).outs ∧ (e.dom 1).w = 0 ∧ e.dom 0 = d.dom 0 ∧ e.objs = d.objs))
    ∧ (∀ n, now (.tbEnable n 1) → (d.dom n).st = .disabled → (d.tb.pair = true → n = 1 → (d.dom 0).st = .disabled) →
        s.runs (.tbEnable h n 1) (fun e => d.actedReporting e { d with doms := e.doms } h 0
        ∧ (e.dom n).st = .acquire ∧ (e.dom n).w = 0 ∧ (e.dom n).ltSet = false ∧ (e.dom n).acqAt = some d.sys.uptime
        ∧ (e.dom n).outs = false ∧ (e.dom n).rate = (d.dom n).rate ∧ (e.dom n).lpres = (d.dom n).lpres
        ∧ ∀ k, k ≠ n → (d.tb.pair = false ∨ k ≠ 1) → e.dom k = d.dom k))
    ∧ (∀ n, now (.tbEnable n 1) → (d.dom n).st ≠ .disabled → s.runs (.tbEnable h n 1) (fun e => d.acted e d h 0))
    ∧ (∀ n, now (.tbEnable n 0) → (d.dom n).st = .disabled → s.runs (.tbEnable h n 0) (fun e => d.acted e d h 0))
    ∧ (∀ n, now (.tbEnable n 0) → (d.dom n).st ≠ .disabled → s.runs (.tbEnable h n 0) (fun e =>
        e.dom n = { d.dom n with dis := some h.tag } ∧ (∀ k, k ≠ n → e.dom k = d.dom k)
        ∧ ∀ m, (d.tag m).uncommitted = true → d.inDom n (d.tag m) = true → (d.tag m).drop = false →
            (d.tags.filter (fun p => p.1 = m)) = [(m, d.tag m)] → e.ended m CANCELLED))
    ∧ (∀ n m c l k, now (.tbTiming n m c l k) → s.runs (.tbTiming h n m c l k) (fun e =>
        let x := d.dom n
        d.acted e { d with doms := e.doms } h 0 ∧ (∀ j, j ≠ n → e.dom j = d.dom j)
        ∧ e.dom n = { x with
            cable := if bit m 0 then c else x.cable,
            lpres := if bit m 1 ∧ x.st = .disabled then l else x.lpres,
            lpresNext := if bit m 1 ∧ x.st ≠ .disabled then some l else x.lpresNext,
            holdLim := if bit m 2 then k else x.holdLim }))
    ∧ (∀ n b, now (.tbDpll n b) → s.runs (.tbDpll h n b) (fun e =>
        d.acted e { d with doms := e.doms } h 0 ∧ (∀ j, j ≠ n → e.dom j = d.dom j)
        ∧ ((d.dom n).st = .disabled → e.dom n = { d.dom n with bw := b, bwNext := none, expert := true })
        ∧ ((d.dom n).st ≠ .disabled → (d.dom (d.clk n)).ltSet = true →
            e.dom n = { d.dom n with bwNext := some b, expert := true })))
    ∧ (∀ n, now (.tbClockmaster n) → s.runs (.tbClockmaster h n) (fun e => e.tb = { d.tb with master := n }
        ∧ e.ended h.tag OK ∧ d.otherTags e h.tag ∧ (e.dom n).rangeMute = false
        ∧ (∀ k, e.dom k = { d.dom k with rangeMute := (e.dom k).rangeMute })
        ∧ ((∀ k, k < 4 → (d.dom k).st = .disabled ∧ (d.dom k).rangeMute = false) → e.doms = d.doms ∧ e.chans = d.chans
          ∧ ((∀ p, (d.port p).role ≠ 1 ∨ (d.port p).st ≠ .locked) → d.acted e { d with tb := { d.tb with master := n } } h 0))))
    ∧ (∀ a b en o, now (.tbPair a b en o) → s.runs (.tbPair h a b en o) (fun e =>
        e.tb = { d.tb with pair := decide (en = 1), offset := o }
        ∧ e.ended h.tag OK ∧ d.otherTags e h.tag ∧ e.doms = d.doms ∧ e.chans = d.chans
        ∧ ((∀ p, (d.port p).role ≠ 1 ∨ (d.port p).st ≠ .locked) →
            d.acted e { d with tb := { d.tb with pair := decide (en = 1), offset := o } } h 0)))
    ∧ (∀ ch m c v t u, now (.mbxConfig ch m c v t u) → s.runs (.mbxConfig h ch m c v t u) (fun e =>
        let x := d.mbx ch
        let again : Prop := bit m 3 = true ∧ u ≠ 0
        d.acted e { d with mbxs := e.mbxs } h 0 ∧ (∀ j, j ≠ ch → e.mbx j = d.mbx j)
        ∧ e.mbx ch = { x with
            cpl := if bit m 0 then (if c = 0xFFFF then none else some c) else x.cpl,
            vec := if bit m 1 then v else x.vec, tmoMs := if bit m 2 then t else x.tmoMs,
            upbuf := if bit m 3 then u else x.upbuf, repost := (e.mbx ch).repost, again := (e.mbx ch).again }
        ∧ (¬again → (e.mbx ch).repost = x.repost ∧ (e.mbx ch).again = x.again)
        ∧ (again → (e.mbx ch).again = [] ∧ (e.mbx ch).repost.length = x.repost.length + x.again.length)))
    ∧ (∀ m, now (.restart m) → s.runs (.restart h m) (fun e =>
        d.actedReporting e { d with restartReq := some 1, restartTag := none } h 0))
    ∧ (∀ p, now (.powerState p) → s.runs (.powerState h p) (fun e => d.otherTags e h.tag
        ∧ (d.sys.pTag = none → d.sys.pstate = p → d.acted e d h 0)
        ∧ (d.sys.pTag = none → d.sys.pstate ≠ p → (e.tag h.tag).st = .active ∧ (e.tag h.tag).ph = .ending
            ∧ e = { d with sys := e.sys, chans := e.chans, tags := e.tags, accepts := d.accepts + 1 }
            ∧ e.sys = { d.sys with
                pGoal := p, pTag := some h.tag,
                pstate := if p = 2 then 3 else if d.sys.pstate = 2 then 4 else d.sys.pstate })
        ∧ (d.sys.pTag ≠ none → (e.tag h.tag).st = .active
            ∧ e = { d with sys := { d.sys with pQueue := d.sys.pQueue ++ [(p, h.tag)] }, tags := e.tags, accepts := d.accepts + 1 })))
    ∧ (∀ a m k t, now (.twConfig a m k t) → s.runs (.twConfig h a m k t) (fun e => d.acted e { d with tw := e.tw } h 0
        ∧ (d.tw.x = .idle → e.tw = { d.tw with addr2 := a, mmode := m, mask := k, stretch := t, next := none })
        ∧ (d.tw.x ≠ .idle → e.tw = { d.tw with next := some (a, m, k, t) })))

/-- While a pair is bridged, every command whose CHMASK selects its partner ends with NOT_PERMITTED, CH_STATUS and
FAULT_COUNTERS apart, which act on it (that a command with a CHMASK is what R225 calls a channel command is log
entry 44). CH_BRIDGE ends with BUSY unless both channels of each pair that it changes are DISABLED, and makes
identification due for both (R225). -/
def Obligations.BridgedPartnersAreNotAddressed : Prop :=
  ∀ (i : Instr) (h : Hdr) (c : Cmd) (s : State), i.ramcen = some (h, c) → s.dev.takesUp h →
    (s.dev.takeTag h (Cmd.op c)).early h (Cmd.op c) = none → countOk (Cmd.op c) h.plen (Cmd.count c) = true →
    (s.dev.entered h c).blocked h.tag = false → ((s.dev.entered h c).authorise c 0).2 = true →
    let d := s.dev
    let a := ((d.entered h c).authorise c 0).1
    let apart : Prop := (∃ n, c = .chStatus n) ∨ (∃ p, c = .chBridge p) ∨ ∃ m, c = .faultCounters m
    let plain : Prop := h.rsvd = 0 ∧ h.atLt = false ∧ a.swept h.tag c = none
    (¬apart → d.namesPartner (Cmd.chmask c) = true →
        s.runs i (fun e => Dev.turnedAway { d with nonce := a.nonce } e h NOT_PERMITTED))
    ∧ (∀ n, c = .chStatus n → n < 48 → plain → h.outlen = 0 → s.runs i (fun e => e.ended h.tag OK))
    ∧ (∀ m, c = .faultCounters m → m ≠ 0 → m < 2 ^ 48 → plain → s.runs i (fun e => e.ended h.tag OK))
    ∧ (∀ p, c = .chBridge p → p < 2 ^ 24 → h.rsvd = 0 →
        (∃ k, k < 24 ∧ (d.pr k).bridged ≠ bit p k ∧ ((d.chan (2 * k)).st ≠ .disabled ∨ (d.chan (2 * k + 1)).st ≠ .disabled)) →
        s.runs i (fun e => d.turnedAway e h BUSY))
    ∧ (∀ p, c = .chBridge p → d.actsNow h c → s.runs i (fun e => ∀ n, n < 48 → (d.pr (n / 2)).bridged ≠ bit p (n / 2) →
        (e.pr (n / 2)).bridged = bit p (n / 2) ∧ (e.chan n).firstId = true ∧ (e.chan n).f0 = 0 ∧ (e.chan n).q = 0))

/-- Channel commands that nothing delays (R141, R206, R209, R215, R220, R222, R224, R418). CH_ENABLE with EN = 1 puts
the channels (a bridged primary with its partner) into their domain; a DISABLED one starts, in HIZ while a hold is
present, and the command waits where an identification is due. With EN = 0 a channel whose transistors are off is
DISABLED at once, one that does not render goes into its soft stop, and any other starts to stop. CH_VOLUME,
CH_MUTE, CH_BRIDGE, CH_LOOP, CH_CARRIER and CH_ZCTO set their values (a release of a mute that a test holds waits for
the test, R162); CH_STATUS answers the record. Channels that a
command does not name keep everything but a layer-3 ramp. -/
def Obligations.ChannelCommandsActOnTheirChannels : Prop :=
  ∀ (h : Hdr) (s : State),
    let d := s.dev
    let now : Cmd → Prop := fun c => d.actsNow h c
    let on : Nat → Nat → Prop := fun m n => n < 48 ∧ bit m n = true
    (∀ m dm, now (.chEnable m 1 dm) → s.runs (.chEnable h m 1 dm) (fun e =>
        let l := d.withMates m
        let ids : Nat → Prop := fun n => (d.chan n).st = .disabled ∧ d.held n = false ∧ (d.chan n).firstId = true
        e = { d with chans := e.chans, tags := e.tags, accepts := d.accepts + 1, dones := e.dones } ∧ d.otherTags e h.tag
        ∧ (∀ n, n ∉ l → e.chan n = { d.chan n with aux := (e.chan n).aux })
        ∧ (∀ n ∈ l, (e.chan n).enabled = true ∧ (e.chan n).dom = dm ∧ (e.chan n).vol = (d.chan n).vol
            ∧ (e.chan n).mute = (d.chan n).mute ∧ (e.chan n).zcto = (d.chan n).zcto
            ∧ (e.chan n).st = if (d.chan n).st ≠ .disabled then (d.chan n).st else if d.held n = true then .hiz else .softStart)
        ∧ ((∀ n ∈ l, ¬ids n) → e.ended h.tag OK)
        ∧ ((∃ n ∈ l, ids n) → (e.tag h.tag).st = .active ∧ ∀ n ∈ l, ids n → (e.chan n).idTag = some h.tag)))
    ∧ (∀ m dm, now (.chEnable m 0 dm) → (∀ n, n < 48 → (d.chan n).diag.ph = .idle) → s.runs (.chEnable h m 0 dm) (fun e =>
        let l := d.withMates m
        let waits : Nat → Prop := fun n => (d.chan n).st.on = true ∧ d.renders (d.chan n).dom = true ∧ (d.chan n).st ≠ .softStop
        (∀ n, n ∉ l → e.chan n = d.chan n)
        ∧ (∀ n ∈ l, (e.chan n).enabled = false ∧ (e.chan n).vol = (d.chan n).vol ∧ (e.chan n).mute = (d.chan n).mute
            ∧ ((d.chan n).st.on = false → (e.chan n).st = if (d.chan n).st = .latched then .latched else .disabled)
            ∧ ((d.chan n).st.on = true → d.renders (d.chan n).dom = false → (e.chan n).st = .softStop)
            ∧ (waits n → (e.chan n).st = (d.chan n).st ∧ (e.chan n).stop ≠ .no ∧ h.tag ∈ (e.chan n).stopTags))
        ∧ e.doms = d.doms ∧ e.objs = d.objs ∧ e.ports = d.ports
        ∧ ((∀ n, (d.chan n).idTag ≠ some h.tag) → (∀ n ∈ l, ¬waits n) → e.ended h.tag OK)
        ∧ ((∀ n, (d.chan n).idTag ≠ some h.tag) → (∃ n ∈ l, waits n) → (e.tag h.tag).st = .active)))
    ∧ (∀ m v r, now (.chVolume m v r) → s.runs (.chVolume h m v r) (fun e => d.acted e { d with chans := e.chans } h 0
        ∧ ∀ n, (on m n → e.chan n = { d.chan n with vol := v, volR := (e.chan n).volR } ∧ (e.chan n).volR.dst = (v : Rat)
              ∧ (e.chan n).volR.val = (v : Rat))
            ∧ (¬on m n → e.chan n = d.chan n)))
    ∧ (∀ m x r, now (.chMute m x r) → s.runs (.chMute h m x r) (fun e =>
        let held : Prop := x ≠ 1 ∧ ∃ n, on m n ∧ (d.chan n).diag.muteSet = true
        (¬held → d.acted e { d with chans := e.chans } h 0)
        ∧ (held → e = { d with chans := e.chans, tags := e.tags, accepts := d.accepts + 1 } ∧ d.otherTags e h.tag
            ∧ (e.tag h.tag).st = .active)
        ∧ ∀ n, (on m n → (d.chan n).diag.muteSet = false →
              e.chan n = { d.chan n with mute := decide (x = 1), muteR := (e.chan n).muteR }
              ∧ (e.chan n).muteR.dst = (if x = 1 then 0 else 1) ∧ (e.chan n).muteR.val = (if x = 1 then 0 else 1))
            ∧ (on m n → (d.chan n).diag.muteSet = true →
              e.chan n = { d.chan n with diag := { (d.chan n).diag with
                muted := decide (x = 1), relTags := (d.chan n).diag.relTags ++ (if x = 1 then [] else [h.tag]) } })
            ∧ (¬on m n → e.chan n = d.chan n)))
    ∧ (∀ p, now (.chBridge p) → s.runs (.chBridge h p) (fun e => d.acted e { d with chans := e.chans, prs := e.prs } h 0
        ∧ (∀ k, e.pr k = if k < 24 then { d.pr k with bridged := bit p k } else d.pr k)
        ∧ ∀ n, e.chan n = if n < 48 ∧ (d.pr (n / 2)).bridged ≠ bit p (n / 2) then { d.chan n with firstId := true, f0 := 0, q := 0 } else d.chan n))
    ∧ (∀ m k, now (.chLoop m k) → s.runs (.chLoop h m k) (fun e => d.acted e { d with chans := e.chans } h 0
        ∧ ∀ n, (n ∉ d.withMates m → e.chan n = d.chan n)
            ∧ (n ∈ d.withMates m → (e.chan n).loopExpert = true ∧ (e.chan n).loop.coefNext = some k ∧ (e.chan n).loop.modClip = 0
                ∧ (e.chan n).loop.coef = (if (d.chan n).st = .disabled then k else (d.chan n).loop.coef)
                ∧ (e.chan n).st = (d.chan n).st ∧ (e.chan n).vol = (d.chan n).vol ∧ (e.chan n).prot = (d.chan n).prot
                ∧ (e.chan n).flt = (d.chan n).flt ∧ (e.chan n).diag = (d.chan n).diag)))
    ∧ (∀ m p q f, now (.chCarrier m p q f) → s.runs (.chCarrier h m p q f) (fun e =>
        d.acted e { d with chans := e.chans, period := if p = 0 then d.period else p } h 0
        ∧ ∀ n, (¬on m n → p = 0 ∨ 48 ≤ n → e.chan n = d.chan n)
            ∧ (¬on m n → p ≠ 0 → n < 48 → e.chan n = { d.chan n with loop := { (d.chan n).loop with slip := 0 } })
            ∧ (on m n → e.chan n = { d.chan n with
                loopExpert := true, loop := { (d.chan n).loop with pmode := q, phase := f, slip := (e.chan n).loop.slip } })
            ∧ (on m n → (p ≠ 0 ∨ (d.chan n).st.on = false) → (e.chan n).loop.slip = 0)))
    ∧ (∀ m z, now (.chZcto m z) → s.runs (.chZcto h m z) (fun e => d.acted e { d with chans := e.chans } h 0
        ∧ ∀ n, e.chan n = if on m n then { d.chan n with zcto := z } else d.chan n))
    ∧ (∀ c, now (.chStatus c) →
        (h.outlen = 0 → s.runs (.chStatus h c) (fun e => d.acted e d h (d.chResult c % 2 ^ 64)))
        ∧ (d.writesOut h → h.out % 128 = 0 → s.runs (.chStatus h c) (fun e =>
            d.acted e { d with out := e.out, link := e.link, trn := e.trn } h (d.chResult c % 2 ^ 64) ∧ d.wrote e h (d.chanRec c))))

/-- Render commands that nothing delays (R143–R145, R166, R171, R176–R179, R186, R189, R194, R203). OBJ_SOURCE binds a
source, or with SRC = 0 returns the object's resources, its settings kept; a rendering object first falls silent.
OBJ_POSITION and OBJ_BASIC recompute the 48 contexts by the panning law, but for an EXPERT object, which only counts
a position; OBJ_BULKDELAY, CTX_WRITE, SHAPE_LOAD, GEOMETRY, PAN_LAW and SCENE_CONFIG set their values. Other
objects, contexts and shapes keep everything, channels all but the BUS_CLIP count that CTX_WRITE and OBJ_BASIC
clear. -/
def Obligations.RenderCommandsActOnTheirResources : Prop :=
  ∀ (h : Hdr) (s : State),
    let d := s.dev
    let now : Cmd → Prop := fun c => d.actsNow h c
    let basic : Dev → Nat → Prop := fun e o => ∀ n, n < 48 → (e.ctx (o * 48 + n)).tapsT = 24 ∧ (e.ctx (o * 48 + n)).shapeT = none
      ∧ (e.ctx (o * 48 + n)).gainT = (e.basicOne o (e.obj o).x (e.obj o).y (e.obj o).z (e.obj o).gain n).2.1
    let clipsOnly : Dev → Prop := fun e => ∀ k, e.chan k = { d.chan k with busClip := (e.chan k).busClip }
    (∀ o x dm b p, x ≠ 0 → now (.objSource o x dm b p) → s.runs (.objSource h o x dm b p) (fun e =>
        let a := d.obj o
        let f := e.obj o
        d.acted e { d with objs := e.objs } h 0 ∧ (∀ j, j ≠ o → e.obj j = d.obj j)
        ∧ f.src = x ∧ f.dom = dm ∧ f.bind = b ∧ f.prio = p ∧ f.x = a.x ∧ f.y = a.y ∧ f.z = a.z ∧ f.gain = a.gain
        ∧ f.bulk = a.bulk ∧ f.ldly = a.ldly ∧ f.expert = a.expert
        ∧ ((a.src ≠ x ∨ a.bind ≠ b) → f.staged = [] ∧ f.played = false ∧ f.present = false ∧ f.lastSc = none)
        ∧ (a.src = x → a.bind = b → f = { a with dom := dm, prio := p })))
    ∧ (∀ o dm b p, now (.objSource o 0 dm b p) → s.runs (.objSource h o 0 dm b p) (fun e =>
        let a := d.obj o
        let f := e.obj o
        (∀ j, j ≠ o → e.obj j = d.obj j) ∧ e.doms = d.doms
        ∧ f.x = a.x ∧ f.y = a.y ∧ f.z = a.z ∧ f.gain = a.gain ∧ f.prio = a.prio ∧ f.bulk = a.bulk ∧ f.expert = a.expert
        ∧ ((a.src = 0 ∨ d.renders a.dom = false) → f.src = 0 ∧ f.bind = 0 ∧ f.staged = [] ∧ f.present = false
            ∧ ((∀ q ∈ d.trn.reads, q.taken = true) → e.ended h.tag OK))
        ∧ (a.src ≠ 0 → d.renders a.dom = true → f.src = a.src ∧ f.waitTag = some h.tag ∧ (e.tag h.tag).st = .active
            ∧ (f.wait = none ↔ (a.present = false ∧ a.hold = 0)) ∧ (f.wait = none → f.ending = true))))
    ∧ (∀ o p g, now (.objPosition o p g) → s.runs (.objPosition h o p g) (fun e =>
        let a := d.obj o
        d.acted e { d with objs := e.objs, ctxs := e.ctxs, mdt := e.mdt } h 0 ∧ (∀ j, j ≠ o → e.obj j = d.obj j)
        ∧ (∀ c, c / 48 ≠ o → e.ctx c = d.ctx c)
        ∧ (a.expert = true → e.ctxs = d.ctxs ∧ e.mdt = d.mdt
            ∧ e.obj o = { a with x := p.x, y := p.y, z := p.z, gain := g, basicIgn := satInc (2 ^ 32 - 1) a.basicIgn })
        ∧ (a.expert = false → basic e o
            ∧ e.obj o = { a with x := p.x, y := p.y, z := p.z, gain := g, basicAt := (e.obj o).basicAt })))
    ∧ (∀ o x l, now (.objBulkdelay o x l) → s.runs (.objBulkdelay h o x l) (fun e =>
        let a := d.obj o
        let f := e.obj o
        let ring : Option Nat := if l = 65535 then none else some l
        d.acted e { d with objs := e.objs, ctxs := e.ctxs } h 0 ∧ (∀ j, j ≠ o → e.obj j = d.obj j) ∧ f.src = a.src ∧ f.x = a.x
        ∧ f.expert = a.expert ∧ (∀ c, c / 48 ≠ o → e.ctx c = d.ctx c)
        ∧ ((a.src = 0 ∨ a.stopped = true) → f.bulk = x ∧ f.ldly = ring)
        ∧ (a.src ≠ 0 → a.stopped = false → f.bulk = a.bulk ∧ f.ldly = a.ldly ∧ f.bulkNext = some (x, ring))))
    ∧ (∀ n es, now (.ctxWrite n es) → (es.map (·.ctx)).Nodup → s.runs (.ctxWrite h n es) (fun e =>
        d.acted e { d with objs := e.objs, ctxs := e.ctxs, chans := e.chans, mdt := e.mdt } h 0 ∧ clipsOnly e
        ∧ (∀ o, e.obj o = if es.any (fun x => x.ctx / 48 = o) = true then { d.obj o with expert := true } else d.obj o)
        ∧ (∀ c, es.any (fun x => x.ctx / 48 = c / 48) = false → e.ctx c = d.ctx c)
        ∧ ∀ x ∈ es, (e.ctx x.ctx).ramp = x.ramp ∧ (e.ctx x.ctx).carry = 0
          ∧ (e.ctx x.ctx).gainT = (if bit x.valid 0 then x.gain else (d.ctx x.ctx).gainT)
          ∧ (e.ctx x.ctx).tapsT = (if bit x.valid 3 then x.taps else (d.ctx x.ctx).tapsT)
          ∧ (e.ctx x.ctx).shapeT = (if bit x.valid 2 then (if x.shape = 0xFFFF then none else some x.shape) else (d.ctx x.ctx).shapeT)))
    ∧ (∀ f n t, now (.shapeLoad f n t) → s.runs (.shapeLoad h f n t) (fun e =>
        d.acted e { d with shapes := e.shapes, mdt := e.mdt } h 0
        ∧ ∀ k, e.shape k = if f ≤ k ∧ k < f + n then { taps := (t.drop (64 * (k - f))).take 64, bad := false } else d.shape k))
    ∧ (∀ f n pts, now (.geometry f n pts) → s.runs (.geometry h f n pts) (fun e =>
        d.acted e { d with geo := e.geo, ctxs := e.ctxs, objs := e.objs, mdt := e.mdt } h 0
        ∧ (∀ o, e.obj o = { d.obj o with basicAt := (e.obj o).basicAt })
        ∧ (∀ k, k < 48 → e.place k = if f ≤ k ∧ k < f + n then (pts[k - f]?).getD ⟨0, 0, 0⟩ else d.place k)
        ∧ (∀ o, o < 256 → (d.obj o).expert = false → basic e o)
        ∧ (∀ o n, n < 48 → (d.obj o).expert = true → e.ctx (o * 48 + n) = d.ctx (o * 48 + n))))
    ∧ (∀ l p, now (.panLaw l p) → s.runs (.panLaw h l p) (fun e =>
        d.acted e { d with rend := { d.rend with law := l, param := p }, ctxs := e.ctxs, objs := e.objs, mdt := e.mdt } h 0
        ∧ (∀ o, e.obj o = { d.obj o with basicAt := (e.obj o).basicAt })
        ∧ (∀ o, o < 256 → (d.obj o).expert = false → basic e o)
        ∧ (∀ o n, n < 48 → (d.obj o).expert = true → e.ctx (o * 48 + n) = d.ctx (o * 48 + n))))
    ∧ (∀ n x p k, now (.sceneConfig n x p k) → s.runs (.sceneConfig h n x p k) (fun e =>
        let a := d.stream n
        let f := e.stream n
        d.acted e { d with streams := e.streams, objs := e.objs } h 0 ∧ (∀ j, j ≠ n → e.stream j = d.stream j)
        ∧ f.en = decide (x ≠ 0) ∧ f.p = p ∧ f.ring = (if x = 0 then none else some k)
        ∧ (x = 0 → f.shadow = [] ∧ f.applied = a.applied ∧ f.missed = a.missed ∧ e.objs = d.objs)
        ∧ (x ≠ 0 → a.en = true → f = { a with p := p, ring := some k } ∧ e.objs = d.objs)
        ∧ (x ≠ 0 → a.en = false → f.applied = 0 ∧ f.missed = 0 ∧ f.badFrame = 0 ∧ f.shadow = []
            ∧ ∀ o, e.obj o = if (d.obj o).dom = n then { d.obj o with cur := none, prev := none } else d.obj o)))
    ∧ (∀ o, now (.objBasic o) → s.runs (.objBasic h o) (fun e =>
        d.acted e { d with objs := e.objs, ctxs := e.ctxs, chans := e.chans, mdt := e.mdt } h 0 ∧ clipsOnly e
        ∧ (∀ j, j ≠ o → e.obj j = d.obj j) ∧ e.obj o = { d.obj o with expert := false, basicAt := (e.obj o).basicAt } ∧ basic e o
        ∧ ∀ c, c / 48 ≠ o → e.ctx c = d.ctx c))

/-- Port and microphone commands that nothing delays (R146–R148, R302–R308, R315, R320, R321). PORT_PRESET, PORT_FORMAT,
PORT_MASK, PORT_SLIP and PORT_ROUTE set their values; PORT_ENABLE lets a port that is off watch its clocks with its
rings, or starts its disable; PDM_CONFIG sets clock and masks, a microphone that enters settles for 50 ms. Other
ports keep everything. -/
def Obligations.PortCommandsActOnTheirPort : Prop :=
  ∀ (h : Hdr) (p : Nat) (s : State),
    let d := s.dev
    let t := d.port p
    let acts : Instr → Cmd → TPort → Prop := fun i c x => d.actsNow h c → s.runs i (fun e => d.acted e (d.setPort p x) h 0)
    let ring : Nat → Option Nat := fun k => if k = 0xFFFF then none else some k
    (∀ k r m x, presetOf k = some x → acts (.portPreset h p k r m) (.portPreset p k r m)
        { t with slots := x.1, width := x.2.1, fsw := x.2.2, offset := 1, pol := 0, role := r, dom := m, group := 0, win := 256,
                 zcto := 10, expert := false })
    ∧ (∀ a w o f q r m, acts (.portFormat h p a w o f q r m) (.portFormat p a w o f q r m)
        { t with slots := a, width := w, offset := o, fsw := f, pol := q, role := r, dom := m, expert := true })
    ∧ (∀ x y, acts (.portEnable h p 1 x y) (.portEnable p 1 x y)
        { t with en := true, st := if t.st = .off then .unlocked else t.st, rxring := ring x, txring := ring y, slipForced := 0,
                 frameErr := 0, zctoCnt := 0, onSc := if t.st = .off then 0 else t.onSc })
    ∧ (∀ x y, d.actsNow h (.portEnable p 0 x y) → (∀ a b, t.maskNext ≠ some (a, b, h.tag)) →
        s.runs (.portEnable h p 0 x y) (fun e => (e.tag h.tag).st = .active ∧ (e.tag h.tag).ph = .ending
          ∧ (∀ j, j ≠ p → e.port j = d.port j) ∧ e.doms = d.doms ∧ e.objs = d.objs
          ∧ (e.port p).endTag = some h.tag ∧ (e.port p).maskNext = none ∧ (e.port p).slip = none ∧ (e.port p).st = t.st
          ∧ (e.port p).rx = t.rx ∧ (e.port p).rxring = t.rxring))
    ∧ (∀ x y, acts (.portMask h p x y) (.portMask p x y) { t with rx := x, tx := y, expert := false })
    ∧ (∀ g w z, acts (.portSlip h p g w z) (.portSlip p g w z)
        { t with group := g, win := w, zcto := z, slipLeft := (w + (d.portClk p).blk - 1) / (d.portClk p).blk, expert := true })
    ∧ (∀ l, acts (.portRoute h p l) (.portRoute p l) { t with route := l })
    ∧ (∀ k m g, d.actsNow h (.pdmConfig k m g) → s.runs (.pdmConfig h k m g) (fun e =>
        d.acted e { d with pdm := { d.pdm with clk := k, mask := m, gmask := g }, mics := e.mics } h 0
        ∧ ∀ j, (32 ≤ j ∨ (bit m j = true ∧ bit d.pdm.mask j = true) → e.mic j = d.mic j)
          ∧ (j < 32 → bit m j = true → bit d.pdm.mask j = false →
              e.mic j = { d.mic j with settle := d.sys.uptime + 50000, buf := [] })
          ∧ (j < 32 → bit m j = false → e.mic j = { d.mic j with settle := 0, buf := [] })))

/-- Protection and fault commands that nothing delays (R122, R149, R158, R244, R245, R265, R275, R276, R283, R291). Each
sets its values on the channels or dies that its mask names (a bridged primary with its partner for the fault
limits); a profile returns its channels to BASIC, and POLICY its dies, whose fault settings fall to their reset
values where they were EXPERT; FAULT_CLEAR starts a latched channel with a probe, or lets it wait in HIZ while a
hold is present, and its RESULT names those channels; EMG_MUTE_CMD sets the command source of the emergency layer;
FAULT_COUNTERS answers the sum of OCTRIPS and clears. Other channels and dies keep everything. -/
def Obligations.ProtectionAndFaultCommandsAct : Prop :=
  ∀ (h : Hdr) (m : Nat) (s : State),
    let d := s.dev
    let on : Nat → Prop := fun n => n < 48 ∧ bit m n = true
    let chans : Instr → Cmd → (Nat → Prop) → (Chan → Chan) → Prop := fun i c p f => d.actsNow h c → s.runs i (fun e =>
      d.acted e { d with chans := e.chans } h 0 ∧ ∀ n, (p n → e.chan n = f (d.chan n)) ∧ (¬p n → e.chan n = d.chan n))
    let dies : Instr → Cmd → (Die → Die) → Prop := fun i c f => d.actsNow h c → s.runs i (fun e =>
      d.acted e { d with dies := e.dies } h 0 ∧ ∀ k, e.die k = if k < 6 ∧ bit m k = true then f (d.die k) else d.die k)
    let limits : Instr → Cmd → (Chan → Chan) → Prop := fun i c f => d.actsNow h c → s.runs i (fun e =>
      d.acted e { d with chans := e.chans, dies := e.dies } h 0
      ∧ (∀ n, (n ∈ d.withMates m → e.chan n = f (d.chan n)) ∧ (n ∉ d.withMates m → e.chan n = d.chan n))
      ∧ ∀ k, ((∃ n, on n ∧ dieOf n = k) → e.die k = { d.die k with expert := true })
        ∧ ((∀ n, on n → dieOf n ≠ k) → e.die k = d.die k))
    (∀ p, d.actsNow h (.protProfile m p) → s.runs (.protProfile h m p) (fun e =>
        d.acted e { d with chans := e.chans, nvm := { d.nvm with refClass := e.nvm.refClass } } h 0
        ∧ ∀ n, (n ∉ d.withMates m → e.chan n = d.chan n)
          ∧ (¬on n → Tab.get 255 e.nvm.refClass n = Tab.get 255 d.nvm.refClass n
              ∧ e.chan n = { d.chan n with loop := { (d.chan n).loop with slip := (e.chan n).loop.slip } })
          ∧ (on n → (e.chan n).prot.profile = p ∧ (e.chan n).prot.expert = false ∧ (e.chan n).loopExpert = false
              ∧ (e.chan n).loop.pmode = 1 ∧ (e.chan n).loop.phase = 0
              ∧ (e.chan n).st = (d.chan n).st ∧ (e.chan n).vol = (d.chan n).vol ∧ (e.chan n).flt = (d.chan n).flt
              ∧ (p = 0 → (e.chan n).prot.const = ConstSet.generic ∧ (e.chan n).prot.ts = TsSet.generic
                  ∧ (e.chan n).prot.pVmax = 800 ∧ (e.chan n).prot.pZ = 8000)
              ∧ Tab.get 255 e.nvm.refClass n = if (d.chan n).prot.profile = p then Tab.get 255 d.nvm.refClass n else 255)))
    ∧ (∀ k, chans (.protThermal h m k) (.protThermal m k) on
        (fun c => { c with prot := Prot.clear { c.prot with const := k, expert := true } }))
    ∧ (∀ t, chans (.protTs h m t) (.protTs m t) on (fun c => { c with prot := Prot.clear { c.prot with
        ts := t, expert := true, fhp := clampHp t c.prot.fhp, fhpWas := clampHp t c.prot.fhp } }))
    ∧ (∀ v t x p, chans (.protLimits h m v t x p) (.protLimits m v t x p) on
        (fun c => { c with prot := { c.prot with vmax := v, tmax := t, xmax := x, plong := p } }))
    ∧ (∀ b, d.actsNow h (.railBudget b) → s.runs (.railBudget h b) (fun e => d.acted e { d with railBudget := b } h 0))
    ∧ (∀ o t, d.actsNow h (.policy m o t) → s.runs (.policy h m o t) (fun e =>
        d.acted e { d with chans := e.chans, dies := e.dies } h 0
        ∧ (∀ k, e.die k = if k < 6 ∧ bit m k = true
            then { d.die k with oc := o, th := t, expert := false,
                                tfold := if (d.die k).expert = true then Die.reset.tfold else (d.die k).tfold }
            else d.die k)
        ∧ ∀ n, e.chan n = if n < 48 ∧ bit m (dieOf n) = true ∧ (d.die (dieOf n)).expert = true
            then { d.chan n with flt := Flt.basic (d.chan n).flt } else d.chan n))
    ∧ (∀ t, dies (.thLimits h m t) (.thLimits m t) (fun x => { x with tfold := t, expert := true }))
    ∧ (∀ i k t w y r, limits (.ocLimits h m i k t w y r) (.ocLimits m i k t w y r)
        (fun c => { c with flt := { c.flt with
          ilim := i, ncons := k, mtrips := t, win := w, tretry := y, rlim := r, cons := 0, times := [] } }))
    ∧ (∀ v t w, limits (.dcLimits h m v t w) (.dcLimits m v t w)
        (fun c => { c with flt := { c.flt with vdc := v, tdc := t, edgewin := w, dcAt := none } }))
    ∧ (d.actsNow h (.faultClear m) → s.runs (.faultClear h m) (fun e =>
        let l := (chList m).filter (fun n => (d.chan n).st = .latched)
        d.acted e { d with chans := e.chans } h (listMask l)
        ∧ (∀ n ∈ l, (e.chan n).flt.retries = 0 ∧ (e.chan n).flt.byClear = true ∧ (e.chan n).enabled = (d.chan n).enabled
            ∧ (d.held n = true → (e.chan n).st = .hiz ∧ (e.chan n).flt.retryAt = some d.sys.uptime)
            ∧ (d.held n = false → (e.chan n).st = .softStart ∧ (e.chan n).flt.probe = 1))
        ∧ (∀ n, (∀ k ∈ l, n ∉ d.mates k) → e.chan n = d.chan n)))
    ∧ (∀ x y r, d.actsNow h (.emgMuteCmd x y r) → s.runs (.emgMuteCmd h x y r) (fun e =>
        let g := { d.emg with cmdSet := decide (x = 1), cmdHard := decide (y = 1), cmdRamp := r }
        Emg.sourcesAs g e.emg ∧ Dev.chansDiffer { d with emg := e.emg, accepts := d.accepts + 1 } e ∧ e.ended h.tag OK
        ∧ e.emg.active = e.emg.isActive d.sys.uptime ∧ (g.hardOn = true → ∀ n, n < 48 → (e.chan n).st.on = false)
        ∧ (g.any ≠ d.emg.any → e.emg.down = g.any ∧ e.emg.ramp0 = d.emg.value d.sys.uptime ∧ e.emg.rampAt = d.sys.uptime)))
    ∧ (d.actsNow h (.faultCounters m) → s.runs (.faultCounters h m) (fun e =>
        d.acted e { d with chans := e.chans } h (((chList m).map (fun n => (d.chan n).flt.trips)).sum % 2 ^ 32)
        ∧ ∀ n, (¬on n → e.chan n = d.chan n) ∧ (on n → e.chan n = { d.chan n with
            zctoCnt := 0, flt := { (d.chan n).flt with trips := 0, retries := 0 },
            loop := { (d.chan n).loop with edgeErr := 0 } })))

/-- Diagnostic commands that nothing delays (R150, R151, R285–R287, R296–R300). A test takes its channels with its own
parameters: it runs, with WHEN = 1 it waits for a quiet window, and the outputs of ACOUSTIC run one at a time; its
tag stays ACTIVE. PILOT, QUIET_WINDOWS and MEAS_BIND set their values. Other channels keep everything but what a
bridged partner shares. -/
def Obligations.DiagnosticCommandsStartTests : Prop :=
  ∀ (h : Hdr) (m : Nat) (s : State),
    let d := s.dev
    let on : Nat → Prop := fun n => n < 48 ∧ bit m n = true
    let test : Instr → Cmd → (Diag → Prop) → (Dev → Prop) → Prop := fun i c p q => d.actsNow h c → s.runs i (fun e =>
      e = { d with chans := e.chans, chains := e.chains, acou := e.acou, tags := e.tags, accepts := d.accepts + 1 }
      ∧ d.otherTags e h.tag ∧ (e.tag h.tag).st = .active
      ∧ (∀ n, on n → (e.chan n).diag.tag = h.tag ∧ p (e.chan n).diag ∧ (e.chan n).vol = (d.chan n).vol
          ∧ (e.chan n).enabled = (d.chan n).enabled)
      ∧ (∀ n, n ∉ d.withMates m → e.chan n = d.chan n) ∧ q e)
    let runs : Nat → Dev → Prop := fun w e => ∀ n, on n →
      (w = 1 → (e.chan n).diag.ph = .wait ∧ (e.chan n).diag.window = true ∧ (e.chan n).st = (d.chan n).st)
      ∧ (w ≠ 1 → (e.chan n).diag.ph = .run ∧ ((e.chan n).mute = true ∨ w = 0)
          ∧ ((d.chan n).st ≠ .disabled → (e.chan n).st = (d.chan n).st)
          ∧ ((d.chan n).st = .disabled → (e.chan n).st = if d.held n = true then .hiz else .softStart))
    (∀ t w, test (.diagRun h m t w) (.diagRun m t w)
        (fun g => g.kind = 1 ∧ g.test = t ∧ g.when_ = w ∧ g.flo = 400 ∧ g.fhi = 12000 ∧ g.level = -7680 ∧ g.dur = 100) (runs w))
    ∧ (∀ w a b v u, test (.diagTones h m w a b v u) (.diagTones m w a b v u)
        (fun g => g.kind = 2 ∧ g.when_ = w ∧ g.flo = a ∧ g.fhi = b ∧ g.level = v ∧ g.dur = u) (runs w))
    ∧ (∀ c x w v, test (.acoustic h m c x w v) (.acoustic m c x w v)
        (fun g => g.kind = 4 ∧ g.mics = c ∧ g.stim = x ∧ g.when_ = w ∧ g.level = v)
        (fun e => (w = 1 → runs w e) ∧ (w ≠ 1 → d.acou.queue = [] → ∃ n, on n ∧ (e.chan n).diag.ph = .run
          ∧ ∀ k, on k → k ≠ n → (e.chan k).diag.ph = .wait ∧ k ∈ e.acou.queue)))
    ∧ (∀ x f v, d.actsNow h (.pilot m x f v) →
        (x = 0 → (∀ t ∈ d.tags, t.2.uncommitted = true → t.2.aims (Cmd.disables (.pilot m 0 f v)) = false)
          ∧ ∀ n, n < 48 → (d.chan n).diag.ph = .idle ∨ (d.tag (d.chan n).diag.tag).st = .active) → s.runs (.pilot h m x f v) (fun e =>
        d.acted e { d with chans := e.chans } h 0 ∧ ∀ n, (¬on n → e.chan n = d.chan n)
          ∧ (on n → (e.chan n).diag.pilEn = decide (x = 1) ∧ (e.chan n).diag.pilAt = d.sys.uptime
              ∧ (e.chan n).diag.pilR.dst = (if x = 1 then 1 else 0) ∧ (e.chan n).diag.ph = (d.chan n).diag.ph
              ∧ (x = 1 → (e.chan n).diag.pilFreq = f ∧ (e.chan n).diag.pilLevel = v) ∧ (e.chan n).st = (d.chan n).st)))
    ∧ (∀ k w, d.actsNow h (.quietWindows k w) →
        (∀ n, n < 48 → (d.chan n).diag.ph ≠ .idle → (d.chan n).diag.tag ≠ h.tag) → s.runs (.quietWindows h k w) (fun e =>
        e.acou.wins = w ∧ e.acou.winOpen = d.opened w ∧ e.ended h.tag OK
        ∧ ((∀ n, n < 48 → (d.chan n).diag.ph = .idle) →
            d.acted e { d with acou := { d.acou with wins := w, winOpen := d.opened w } } h 0)))
    ∧ (∀ k, d.actsNow h (.measBind k) → s.runs (.measBind h k) (fun e =>
        d.acted e { d with acou := { d.acou with ring := if k = 0xFFFF then none else some k } } h 0))

/-- Secure and Mordant commands that nothing delays (R153–R156, R346–R348, R351, R356). ENV_SET and ENV_UNLOCK change
the envelopes of their channels, and working limits above the new envelope fall to it; AUTH_CHALLENGE draws a new
nonce, whose value the manual leaves open (log entry 5); an authorised command uses it up. OWNER_KEY, MORDANT_CLEAR
and MDT_EXPORT begin and stay ACTIVE, and so does STAGE while the internal domain is not fenced, with all of its
data still to be read; STAGE_COMMIT answers the version of a good target and leaves any other invalid; ACTIVATE
selects an image, with NOW a restart follows; MDT_INFO answers the log's state; MDT_NOTE adds a record. -/
def Obligations.SecureAndMordantCommandsAct : Prop :=
  ∀ (h : Hdr) (s : State),
    let d := s.dev
    let now : Cmd → Prop := fun c => d.actsNow h c
    let begins : Dev → Dev → Prop := fun x e => e = { x with tags := e.tags, accepts := d.accepts + 1 } ∧ d.otherTags e h.tag
      ∧ (e.tag h.tag).st = .active
    let on : Nat → Nat → Prop := fun m n => n < 48 ∧ bit m n = true
    (∀ m v t x p r l, now (.envSet m v t x p r l) → s.runs (.envSet h m v t x p r l) (fun e =>
        d.actedReporting e { d with nvm := e.nvm, chans := e.chans, railBudget := e.railBudget } h 0
        ∧ e.nvm = { d.nvm with env := e.nvm.env, rail := if r = 0 then d.nvm.rail else r }
        ∧ e.railBudget = (if r ≠ 0 ∧ r < d.railBudget then r else d.railBudget)
        ∧ ∀ n, (¬on m n → e.env n = d.env n ∧ e.chan n = d.chan n)
          ∧ (on m n → e.env n = { vmax := v, tmax := t, xmax := x, plong := p, lock := (d.env n).lock || decide (l = 1) }
              ∧ (e.chan n).prot.vmax = pulled (d.chan n).prot.vmax v ∧ (e.chan n).prot.tmax = pulled (d.chan n).prot.tmax t
              ∧ (e.chan n).prot.xmax = pulled (d.chan n).prot.xmax x ∧ (e.chan n).prot.plong = pulled (d.chan n).prot.plong p
              ∧ (e.chan n).st = (d.chan n).st ∧ (e.chan n).flt = (d.chan n).flt)))
    ∧ (∀ m g, now (.envUnlock m g) → s.runs (.envUnlock h m g) (fun e =>
        d.actedReporting e { d with nonce := none, nvm := { d.nvm with env := e.nvm.env } } h 0
        ∧ ∀ n, e.env n = if on m n then { d.env n with lock := false } else d.env n))
    ∧ (now .authChallenge → s.runs (.authChallenge h) (fun e =>
        let v := Config.freeNat d.draw % 2 ^ 64
        d.acted e { d with nonce := some (v, d.sys.uptime), draw := d.draw + 1 } h v))
    ∧ (∀ k g, now (.ownerKey k g) → s.runs (.ownerKey h k g) (fun e => begins { d with nonce := e.nonce } e
        ∧ e.nvm.ownerKey = d.nvm.ownerKey ∧ (d.nvm.ownerKey.isSome = true → e.nonce = none)))
    ∧ (∀ t o l a, now (.stage t o l a) → (d.fn 1).ifenced = false → s.runs (.stage h t o l a) (fun e =>
        let k := d.region t
        let x := d.nvm.img k
        let y := e.nvm.img k
        (∃ z, Dev.reported { d with nvm := e.nvm, trn := { d.trn with readNo := e.trn.readNo } } z ∧ begins z e)
        ∧ (e.tag h.tag).ph = .ending ∧ (e.tag h.tag).waits = l ∧ e.nvm = d.nvm.setImg k y ∧ y.staging = true ∧ y.version = x.version ∧ y.hdr = x.hdr
        ∧ (x.staging = true → y.valid = x.valid ∧ y.committed = x.committed ∧ y.next = max x.next (o + l))
        ∧ (x.staging = false → y.valid = false ∧ y.committed = false ∧ y.next = o + l)))
    ∧ (∀ t, now (.stageCommit t) → s.runs (.stageCommit h t) (fun e =>
        let k := d.region t
        let y := e.nvm.img k
        y.staging = false ∧ d.otherTags e h.tag ∧ e.chans = d.chans ∧ e.nvm.ownerKey = d.nvm.ownerKey ∧ e.nvm.env = d.nvm.env
        ∧ (d.commits k = none → y.valid = false ∧ y.committed = false ∧ e.ended h.tag NOT_PERMITTED)
        ∧ (∀ v f, d.commits k = some (v, f) → y.valid = true ∧ y.committed = true ∧ y.version = v ∧ y.floor = f
            ∧ e.ended h.tag OK ∧ (e.tag h.tag).result = v)))
    ∧ (∀ i w, now (.activate i w) → s.runs (.activate h i w) (fun e =>
        d.actedReporting e { d with nvm := e.nvm, restartReq := e.restartReq, restartTag := e.restartTag } h 0
        ∧ e.nvm = { d.nvm with select := i, trial := true, failA := e.nvm.failA, failB := e.nvm.failB }
        ∧ e.nvm.failA = (if i = 0 then false else d.nvm.failA) ∧ e.nvm.failB = (if i = 0 then d.nvm.failB else false)
        ∧ e.restartReq = (if w = 1 then some 2 else d.restartReq)
        ∧ e.restartTag = (if w = 1 then some h.tag else d.restartTag)))
    ∧ (∀ a g, now (.mordantClear a g) → s.runs (.mordantClear h a g) (fun e =>
        e = { d with nonce := none, nvm := { d.nvm with clearing := some (a, d.nvm.next, some h.tag) }, tags := e.tags,
                     accepts := d.accepts + 1 }
        ∧ (e.tag h.tag).st = .active ∧ (e.tag h.tag).ph = .ending
        ∧ ∀ n, n ≠ h.tag → e.tag n = if d.exports.any (fun x => x.tag = n && bit a x.area) = true
            then { d.tag n with cancelAt := true } else d.tag n))
    ∧ (now .mdtInfo → s.runs (.mdtInfo h) (fun e => d.acted e d h
        ((d.nvm.next + d.nvm.ff.length * 2 ^ 32 + d.nvm.clears * 2 ^ 48) % 2 ^ 64)))
    ∧ (∀ a f n k, now (.mdtExport a f n k) → s.runs (.mdtExport h a f n k) (fun e => ∃ x,
        begins { d with exports := d.exports ++ [x] } e ∧ x.tag = h.tag ∧ x.area = a ∧ x.from_ = f ∧ x.left = n ∧ x.ring = k
        ∧ x.sent = 0 ∧ x.skipped = 0))
    ∧ (∀ c b, now (.mdtNote c b) → s.runs (.mdtNote h c b) (fun e =>
        let p := d.senderOf h.via - 2
        d.actedReporting e { d with paths := e.paths } h 0 ∧ (∀ j, j ≠ p → e.path j = d.path j)
        ∧ e.path p = { d.path p with notes := (e.path p).notes } ∧ d.sys.uptime ∈ (e.path p).notes))

/-- Ring, decimation and DSYNC commands that nothing delays (R49, R68, R79, R81–R83, R157, R232–R234, R238, R239).
RING_SETUP puts its ring into RUNNING with its descriptor, its indexes and its counters cleared, keeps the records
that an ERROR ring of the same type still held, and publishes the index, or stalls where the page of the index block
refuses it; RING_DESTROY of a ring in ERROR or FENCED ends at once with what was left, and one that runs drains;
ISO_RESERVE sets both reservations and tells a raised one that the link cannot carry. The decimation commands set
their values on the chains of their mask; DSYNC resets the phase of every chain. Other rings and chains keep
everything. -/
def Obligations.RingAndDecimationCommandsAct : Prop :=
  ∀ (h : Hdr) (s : State),
    let d := s.dev
    let now : Cmd → Prop := fun c => d.actsNow h c
    let chains : Nat → Instr → Cmd → (Chain → Chain) → Prop := fun m i c f => now c → s.runs i (fun e =>
      d.acted e { d with chains := e.chains } h 0
      ∧ ∀ k, e.chain k = if k < 128 ∧ bit m k = true then f (d.chain k) else d.chain k)
    (∀ k x, now (.ringSetup k x) → s.runs (.ringSetup h k x) (fun e =>
        let r := e.ring k
        let was := d.ring k
        let refused : Prop := d.link.up = true ∧ (d.fn r.owner).fenced = false ∧ (d.lookFault r.owner r.idxAddr true).isSome = true
        let others : Prop := (∀ j, j ≠ k → (d.ring j).settingsKept (e.ring j)) ∧ (∀ o, o ≠ x.bind → e.obj o = d.obj o)
        d.actedReporting e { d with rings := e.rings, objs := e.objs } h 0
        ∧ others ∧ (x.type ≠ 1 → x.type ≠ 2 → e.objs = d.objs)
        ∧ r.base = x.base ∧ r.log2n = x.log2n ∧ r.type = x.type ∧ r.esize = x.esize ∧ r.domain = x.domain
        ∧ r.owner = fnOf (d.senderOf h.via) ∧ r.vector = x.vector ∧ r.wmark = x.wmark ∧ r.bind = x.bind ∧ r.head = x.head
        ∧ r.tail = x.tail ∧ (x.type ≠ 11 → r.cntA = 0) ∧ r.cntB = 0 ∧ r.drop = 0
        ∧ (refused → r.st = .stalled) ∧ (¬refused → r.st = .running ∧ r.cntA = 0 ∧ r.didx = r.devIdx ∧ ∀ j, j ≠ k → e.ring j = d.ring j)
        ∧ r.staged = if was.st = .error ∧ was.type = x.type ∧ was.hostProduced = false then was.staged else []))
    ∧ (∀ k, now (.ringDestroy k) → (d.ring k).st = .disabled → s.runs (.ringDestroy h k) (fun e => d.acted e d h 0))
    ∧ (∀ k, now (.ringDestroy k) → ((d.ring k).st = .error ∨ (d.ring k).st = .fenced) → s.runs (.ringDestroy h k) (fun e =>
        (e.ring k).st = .disabled ∧ (∀ j, j ≠ k → e.ring j = d.ring j) ∧ e.ended h.tag OK ∧ e.chans = d.chans
        ∧ (e.tag h.tag).result = (if (d.ring k).type = 7 then (d.ring k).occ else (d.ring k).left) % 2 ^ 64))
    ∧ (∀ k, now (.ringDestroy k) → ((d.ring k).st = .running ∨ (d.ring k).st = .stalled) →
        (∀ o, (d.obj o).waitTag ≠ some h.tag) → s.runs (.ringDestroy h k) (fun e =>
        (e.ring k).st = .draining ∧ (e.ring k).endTag = some h.tag ∧ (e.ring k).head = (d.ring k).head
        ∧ (e.ring k).tail = (d.ring k).tail ∧ (∀ j, j ≠ k → e.ring j = d.ring j) ∧ (e.tag h.tag).st = .active
        ∧ (e.tag h.tag).ph = .ending ∧ e.chans = d.chans
        ∧ ∀ p, (d.port p).rxring ≠ some k → (d.port p).txring ≠ some k → e.port p = d.port p))
    ∧ (∀ r w, now (.isoReserve r w) → s.runs (.isoReserve h r w) (fun e =>
        let u := usableRate d.link.speed d.link.width
        let short : Bool := d.link.up && decide (4 * u < 5 * max (10 * r) (10 * w))
        let raised : Prop := (d.link.rdRes < 10 * r ∧ 4 * u < 50 * r) ∨ (d.link.wrRes < 10 * w ∧ 4 * u < 50 * w)
        d.actedReporting e { d with link := { d.link with rdRes := 10 * r, wrRes := 10 * w, short := short } } h 0
        ∧ ((short = false ∨ ¬raised) → e.fns = d.fns ∧ e.out = d.out)
        ∧ (short = true → raised →
            (e.fn 0).evtSeq = ((d.fn 0).evtSeq + 1) % 65536)))
    ∧ (∀ m p, now (.decPreset m p) → s.runs (.decPreset h m p) (fun e =>
        (∀ k, e.chain k = if k < 128 ∧ bit m k = true then { d.chain k with
            preset := p, bankA := none, bankB := none, active := 0, corner := 20, cmdFreeze := false, expert := false }
          else d.chain k)
        ∧ e.ended h.tag OK ∧ e.chans = d.chans ∧ e.doms = d.doms ∧ e.objs = d.objs
        ∧ ((∀ t ∈ d.tags, ∀ x, t.2.cmd ≠ some (.decSwap x)) → d.acted e { d with chains := e.chains } h 0)))
    ∧ (∀ m b n l, chains m (.decFir h m b n l) (.decFir m b n l) (fun x =>
        { x with bankA := if b = 0 then some l else x.bankA, bankB := if b = 0 then x.bankB else some l, expert := true }))
    ∧ (∀ m, chains m (.decSwap h m) (.decSwap m) (fun x => { x with active := 1 - x.active, expert := true }))
    ∧ (∀ m c f, chains m (.decDcblock h m c f) (.decDcblock m c f) (fun x =>
        { x with corner := if c = 0 then x.corner else c, cmdFreeze := decide (f = 1), expert := true }))
    ∧ (now .dsync → s.runs (.dsync h) (fun e =>
        d.actedReporting e { d with chains := e.chains, chans := e.chans } h 0
        ∧ (∀ c, e.chain c = if c < 128 then { d.chain c with resetAt := d.sys.uptime, rstDue := true } else d.chain c)
        ∧ (∀ n, n < 48 → (e.chan n).st = (d.chan n).st ∧ (e.chan n).prot.winBad = true
            ∧ ((d.chan n).st ≠ .disabled → (e.chan n).loop.holdInt = true))
        ∧ (∀ n, 48 ≤ n → e.chan n = d.chan n) ∧ (e.fn 0).evtSeq = ((d.fn 0).evtSeq + 1) % 65536))
end

