-- ==== Sys2Proof/Laws/State.lean ====
section
/-! SUPPORT. What a read of the state gives after one resource of it was replaced: the replaced resource reads as the
new value, every other one and every other field as before. One lemma per field and setter, so that no proof unfolds a
record update. -/

namespace Sys2Proof.Machine

/-! ### Tables -/

/-- A table reads the value just set. -/
@[simp] theorem Tab.get_set_same {α : Type} (x : α) (t : Tab α) (i : Nat) (v : α) : Tab.get x (Tab.set t i v) i = v := by
  induction t with
  | nil => simp [Tab.set, Tab.get]
  | cons p t ih =>
    obtain ⟨k, w⟩ := p
    simp only [Tab.set]
    split
    · simp [Tab.get]
    · split
      · simp_all [Tab.get]
      · rename_i h1 h2
        simp [Tab.get, ih, Ne.symm h2]

/-- Every other number reads as before. -/
theorem Tab.get_set_other {α : Type} (x : α) (t : Tab α) {i j : Nat} (v : α) (h : j ≠ i) :
    Tab.get x (Tab.set t i v) j = Tab.get x t j := by
  induction t with
  | nil => simp [Tab.set, Tab.get, Ne.symm h]
  | cons p t ih =>
    obtain ⟨k, w⟩ := p
    simp only [Tab.set]
    split
    · simp [Tab.get, Ne.symm h]
    · split
      · rename_i h1 h2; subst h2; simp [Tab.get, Ne.symm h]
      · simp [Tab.get, ih]

section Fields
variable (d : Dev) (n m : Nat)


/-! ### After `setDom` -/

@[simp] theorem setDom_dom (v : Dom) : (d.setDom n v).dom n = v := Tab.get_set_same ..
theorem setDom_dom_other (v : Dom) (h : m ≠ n) : (d.setDom n v).dom m = d.dom m := Tab.get_set_other _ _ _ h
@[simp] theorem setDom_path (v : Dom) : (d.setDom n v).path m = d.path m := rfl
@[simp] theorem setDom_fn (v : Dom) : (d.setDom n v).fn m = d.fn m := rfl
@[simp] theorem setDom_ring (v : Dom) : (d.setDom n v).ring m = d.ring m := rfl
@[simp] theorem setDom_mbx (v : Dom) : (d.setDom n v).mbx m = d.mbx m := rfl
@[simp] theorem setDom_tag (v : Dom) : (d.setDom n v).tag m = d.tag m := rfl
@[simp] theorem setDom_chan (v : Dom) : (d.setDom n v).chan m = d.chan m := rfl
@[simp] theorem setDom_die (v : Dom) : (d.setDom n v).die m = d.die m := rfl
@[simp] theorem setDom_pr (v : Dom) : (d.setDom n v).pr m = d.pr m := rfl
@[simp] theorem setDom_obj (v : Dom) : (d.setDom n v).obj m = d.obj m := rfl
@[simp] theorem setDom_ctx (v : Dom) : (d.setDom n v).ctx m = d.ctx m := rfl
@[simp] theorem setDom_shape (v : Dom) : (d.setDom n v).shape m = d.shape m := rfl
@[simp] theorem setDom_stream (v : Dom) : (d.setDom n v).stream m = d.stream m := rfl
@[simp] theorem setDom_port (v : Dom) : (d.setDom n v).port m = d.port m := rfl
@[simp] theorem setDom_mic (v : Dom) : (d.setDom n v).mic m = d.mic m := rfl
@[simp] theorem setDom_chain (v : Dom) : (d.setDom n v).chain m = d.chain m := rfl
@[simp] theorem setDom_sys (v : Dom) : (d.setDom n v).sys = d.sys := rfl
@[simp] theorem setDom_tb (v : Dom) : (d.setDom n v).tb = d.tb := rfl
@[simp] theorem setDom_paths (v : Dom) : (d.setDom n v).paths = d.paths := rfl
@[simp] theorem setDom_fns (v : Dom) : (d.setDom n v).fns = d.fns := rfl
@[simp] theorem setDom_trn (v : Dom) : (d.setDom n v).trn = d.trn := rfl
@[simp] theorem setDom_link (v : Dom) : (d.setDom n v).link = d.link := rfl
@[simp] theorem setDom_rings (v : Dom) : (d.setDom n v).rings = d.rings := rfl
@[simp] theorem setDom_mbxs (v : Dom) : (d.setDom n v).mbxs = d.mbxs := rfl
@[simp] theorem setDom_tags (v : Dom) : (d.setDom n v).tags = d.tags := rfl
@[simp] theorem setDom_accepts (v : Dom) : (d.setDom n v).accepts = d.accepts := rfl
@[simp] theorem setDom_dones (v : Dom) : (d.setDom n v).dones = d.dones := rfl
@[simp] theorem setDom_cmdLast (v : Dom) : (d.setDom n v).cmdLast = d.cmdLast := rfl
@[simp] theorem setDom_fetched (v : Dom) : (d.setDom n v).fetched = d.fetched := rfl
@[simp] theorem setDom_tless (v : Dom) : (d.setDom n v).tless = d.tless := rfl
@[simp] theorem setDom_nvm (v : Dom) : (d.setDom n v).nvm = d.nvm := rfl
@[simp] theorem setDom_mdt (v : Dom) : (d.setDom n v).mdt = d.mdt := rfl
@[simp] theorem setDom_fz (v : Dom) : (d.setDom n v).fz = d.fz := rfl
@[simp] theorem setDom_tw (v : Dom) : (d.setDom n v).tw = d.tw := rfl
@[simp] theorem setDom_emg (v : Dom) : (d.setDom n v).emg = d.emg := rfl
@[simp] theorem setDom_sbe (v : Dom) : (d.setDom n v).sbe = d.sbe := rfl
@[simp] theorem setDom_faults (v : Dom) : (d.setDom n v).faults = d.faults := rfl
@[simp] theorem setDom_nonce (v : Dom) : (d.setDom n v).nonce = d.nonce := rfl
@[simp] theorem setDom_restartReq (v : Dom) : (d.setDom n v).restartReq = d.restartReq := rfl
@[simp] theorem setDom_restartTag (v : Dom) : (d.setDom n v).restartTag = d.restartTag := rfl
@[simp] theorem setDom_out (v : Dom) : (d.setDom n v).out = d.out := rfl
@[simp] theorem setDom_lastRead (v : Dom) : (d.setDom n v).lastRead = d.lastRead := rfl
@[simp] theorem setDom_mirror (v : Dom) : (d.setDom n v).mirror = d.mirror := rfl
@[simp] theorem setDom_mirSeq (v : Dom) : (d.setDom n v).mirSeq = d.mirSeq := rfl
@[simp] theorem setDom_mirSec (v : Dom) : (d.setDom n v).mirSec = d.mirSec := rfl
@[simp] theorem setDom_exports (v : Dom) : (d.setDom n v).exports = d.exports := rfl
@[simp] theorem setDom_draw (v : Dom) : (d.setDom n v).draw = d.draw := rfl
@[simp] theorem setDom_chans (v : Dom) : (d.setDom n v).chans = d.chans := rfl
@[simp] theorem setDom_dies (v : Dom) : (d.setDom n v).dies = d.dies := rfl
@[simp] theorem setDom_prs (v : Dom) : (d.setDom n v).prs = d.prs := rfl
@[simp] theorem setDom_objs (v : Dom) : (d.setDom n v).objs = d.objs := rfl
@[simp] theorem setDom_ctxs (v : Dom) : (d.setDom n v).ctxs = d.ctxs := rfl
@[simp] theorem setDom_shapes (v : Dom) : (d.setDom n v).shapes = d.shapes := rfl
@[simp] theorem setDom_geo (v : Dom) : (d.setDom n v).geo = d.geo := rfl
@[simp] theorem setDom_rend (v : Dom) : (d.setDom n v).rend = d.rend := rfl
@[simp] theorem setDom_streams (v : Dom) : (d.setDom n v).streams = d.streams := rfl
@[simp] theorem setDom_ports (v : Dom) : (d.setDom n v).ports = d.ports := rfl
@[simp] theorem setDom_mics (v : Dom) : (d.setDom n v).mics = d.mics := rfl
@[simp] theorem setDom_pdm (v : Dom) : (d.setDom n v).pdm = d.pdm := rfl
@[simp] theorem setDom_chains (v : Dom) : (d.setDom n v).chains = d.chains := rfl
@[simp] theorem setDom_period (v : Dom) : (d.setDom n v).period = d.period := rfl
@[simp] theorem setDom_railBudget (v : Dom) : (d.setDom n v).railBudget = d.railBudget := rfl
@[simp] theorem setDom_acou (v : Dom) : (d.setDom n v).acou = d.acou := rfl

/-! ### After `setPath` -/

@[simp] theorem setPath_path (v : PathR) : (d.setPath n v).path n = v := Tab.get_set_same ..
theorem setPath_path_other (v : PathR) (h : m ≠ n) : (d.setPath n v).path m = d.path m := Tab.get_set_other _ _ _ h
@[simp] theorem setPath_dom (v : PathR) : (d.setPath n v).dom m = d.dom m := rfl
@[simp] theorem setPath_fn (v : PathR) : (d.setPath n v).fn m = d.fn m := rfl
@[simp] theorem setPath_ring (v : PathR) : (d.setPath n v).ring m = d.ring m := rfl
@[simp] theorem setPath_mbx (v : PathR) : (d.setPath n v).mbx m = d.mbx m := rfl
@[simp] theorem setPath_tag (v : PathR) : (d.setPath n v).tag m = d.tag m := rfl
@[simp] theorem setPath_chan (v : PathR) : (d.setPath n v).chan m = d.chan m := rfl
@[simp] theorem setPath_die (v : PathR) : (d.setPath n v).die m = d.die m := rfl
@[simp] theorem setPath_pr (v : PathR) : (d.setPath n v).pr m = d.pr m := rfl
@[simp] theorem setPath_obj (v : PathR) : (d.setPath n v).obj m = d.obj m := rfl
@[simp] theorem setPath_ctx (v : PathR) : (d.setPath n v).ctx m = d.ctx m := rfl
@[simp] theorem setPath_shape (v : PathR) : (d.setPath n v).shape m = d.shape m := rfl
@[simp] theorem setPath_stream (v : PathR) : (d.setPath n v).stream m = d.stream m := rfl
@[simp] theorem setPath_port (v : PathR) : (d.setPath n v).port m = d.port m := rfl
@[simp] theorem setPath_mic (v : PathR) : (d.setPath n v).mic m = d.mic m := rfl
@[simp] theorem setPath_chain (v : PathR) : (d.setPath n v).chain m = d.chain m := rfl
@[simp] theorem setPath_sys (v : PathR) : (d.setPath n v).sys = d.sys := rfl
@[simp] theorem setPath_tb (v : PathR) : (d.setPath n v).tb = d.tb := rfl
@[simp] theorem setPath_doms (v : PathR) : (d.setPath n v).doms = d.doms := rfl
@[simp] theorem setPath_fns (v : PathR) : (d.setPath n v).fns = d.fns := rfl
@[simp] theorem setPath_trn (v : PathR) : (d.setPath n v).trn = d.trn := rfl
@[simp] theorem setPath_link (v : PathR) : (d.setPath n v).link = d.link := rfl
@[simp] theorem setPath_rings (v : PathR) : (d.setPath n v).rings = d.rings := rfl
@[simp] theorem setPath_mbxs (v : PathR) : (d.setPath n v).mbxs = d.mbxs := rfl
@[simp] theorem setPath_tags (v : PathR) : (d.setPath n v).tags = d.tags := rfl
@[simp] theorem setPath_accepts (v : PathR) : (d.setPath n v).accepts = d.accepts := rfl
@[simp] theorem setPath_dones (v : PathR) : (d.setPath n v).dones = d.dones := rfl
@[simp] theorem setPath_cmdLast (v : PathR) : (d.setPath n v).cmdLast = d.cmdLast := rfl
@[simp] theorem setPath_fetched (v : PathR) : (d.setPath n v).fetched = d.fetched := rfl
@[simp] theorem setPath_tless (v : PathR) : (d.setPath n v).tless = d.tless := rfl
@[simp] theorem setPath_nvm (v : PathR) : (d.setPath n v).nvm = d.nvm := rfl
@[simp] theorem setPath_mdt (v : PathR) : (d.setPath n v).mdt = d.mdt := rfl
@[simp] theorem setPath_fz (v : PathR) : (d.setPath n v).fz = d.fz := rfl
@[simp] theorem setPath_tw (v : PathR) : (d.setPath n v).tw = d.tw := rfl
@[simp] theorem setPath_emg (v : PathR) : (d.setPath n v).emg = d.emg := rfl
@[simp] theorem setPath_sbe (v : PathR) : (d.setPath n v).sbe = d.sbe := rfl
@[simp] theorem setPath_faults (v : PathR) : (d.setPath n v).faults = d.faults := rfl
@[simp] theorem setPath_nonce (v : PathR) : (d.setPath n v).nonce = d.nonce := rfl
@[simp] theorem setPath_restartReq (v : PathR) : (d.setPath n v).restartReq = d.restartReq := rfl
@[simp] theorem setPath_restartTag (v : PathR) : (d.setPath n v).restartTag = d.restartTag := rfl
@[simp] theorem setPath_out (v : PathR) : (d.setPath n v).out = d.out := rfl
@[simp] theorem setPath_lastRead (v : PathR) : (d.setPath n v).lastRead = d.lastRead := rfl
@[simp] theorem setPath_mirror (v : PathR) : (d.setPath n v).mirror = d.mirror := rfl
@[simp] theorem setPath_mirSeq (v : PathR) : (d.setPath n v).mirSeq = d.mirSeq := rfl
@[simp] theorem setPath_mirSec (v : PathR) : (d.setPath n v).mirSec = d.mirSec := rfl
@[simp] theorem setPath_exports (v : PathR) : (d.setPath n v).exports = d.exports := rfl
@[simp] theorem setPath_draw (v : PathR) : (d.setPath n v).draw = d.draw := rfl
@[simp] theorem setPath_chans (v : PathR) : (d.setPath n v).chans = d.chans := rfl
@[simp] theorem setPath_dies (v : PathR) : (d.setPath n v).dies = d.dies := rfl
@[simp] theorem setPath_prs (v : PathR) : (d.setPath n v).prs = d.prs := rfl
@[simp] theorem setPath_objs (v : PathR) : (d.setPath n v).objs = d.objs := rfl
@[simp] theorem setPath_ctxs (v : PathR) : (d.setPath n v).ctxs = d.ctxs := rfl
@[simp] theorem setPath_shapes (v : PathR) : (d.setPath n v).shapes = d.shapes := rfl
@[simp] theorem setPath_geo (v : PathR) : (d.setPath n v).geo = d.geo := rfl
@[simp] theorem setPath_rend (v : PathR) : (d.setPath n v).rend = d.rend := rfl
@[simp] theorem setPath_streams (v : PathR) : (d.setPath n v).streams = d.streams := rfl
@[simp] theorem setPath_ports (v : PathR) : (d.setPath n v).ports = d.ports := rfl
@[simp] theorem setPath_mics (v : PathR) : (d.setPath n v).mics = d.mics := rfl
@[simp] theorem setPath_pdm (v : PathR) : (d.setPath n v).pdm = d.pdm := rfl
@[simp] theorem setPath_chains (v : PathR) : (d.setPath n v).chains = d.chains := rfl
@[simp] theorem setPath_period (v : PathR) : (d.setPath n v).period = d.period := rfl
@[simp] theorem setPath_railBudget (v : PathR) : (d.setPath n v).railBudget = d.railBudget := rfl
@[simp] theorem setPath_acou (v : PathR) : (d.setPath n v).acou = d.acou := rfl

/-! ### After `setFn` -/

@[simp] theorem setFn_fn (v : Fn) : (d.setFn n v).fn n = v := Tab.get_set_same ..
theorem setFn_fn_other (v : Fn) (h : m ≠ n) : (d.setFn n v).fn m = d.fn m := Tab.get_set_other _ _ _ h
@[simp] theorem setFn_dom (v : Fn) : (d.setFn n v).dom m = d.dom m := rfl
@[simp] theorem setFn_path (v : Fn) : (d.setFn n v).path m = d.path m := rfl
@[simp] theorem setFn_ring (v : Fn) : (d.setFn n v).ring m = d.ring m := rfl
@[simp] theorem setFn_mbx (v : Fn) : (d.setFn n v).mbx m = d.mbx m := rfl
@[simp] theorem setFn_tag (v : Fn) : (d.setFn n v).tag m = d.tag m := rfl
@[simp] theorem setFn_chan (v : Fn) : (d.setFn n v).chan m = d.chan m := rfl
@[simp] theorem setFn_die (v : Fn) : (d.setFn n v).die m = d.die m := rfl
@[simp] theorem setFn_pr (v : Fn) : (d.setFn n v).pr m = d.pr m := rfl
@[simp] theorem setFn_obj (v : Fn) : (d.setFn n v).obj m = d.obj m := rfl
@[simp] theorem setFn_ctx (v : Fn) : (d.setFn n v).ctx m = d.ctx m := rfl
@[simp] theorem setFn_shape (v : Fn) : (d.setFn n v).shape m = d.shape m := rfl
@[simp] theorem setFn_stream (v : Fn) : (d.setFn n v).stream m = d.stream m := rfl
@[simp] theorem setFn_port (v : Fn) : (d.setFn n v).port m = d.port m := rfl
@[simp] theorem setFn_mic (v : Fn) : (d.setFn n v).mic m = d.mic m := rfl
@[simp] theorem setFn_chain (v : Fn) : (d.setFn n v).chain m = d.chain m := rfl
@[simp] theorem setFn_sys (v : Fn) : (d.setFn n v).sys = d.sys := rfl
@[simp] theorem setFn_tb (v : Fn) : (d.setFn n v).tb = d.tb := rfl
@[simp] theorem setFn_doms (v : Fn) : (d.setFn n v).doms = d.doms := rfl
@[simp] theorem setFn_paths (v : Fn) : (d.setFn n v).paths = d.paths := rfl
@[simp] theorem setFn_trn (v : Fn) : (d.setFn n v).trn = d.trn := rfl
@[simp] theorem setFn_link (v : Fn) : (d.setFn n v).link = d.link := rfl
@[simp] theorem setFn_rings (v : Fn) : (d.setFn n v).rings = d.rings := rfl
@[simp] theorem setFn_mbxs (v : Fn) : (d.setFn n v).mbxs = d.mbxs := rfl
@[simp] theorem setFn_tags (v : Fn) : (d.setFn n v).tags = d.tags := rfl
@[simp] theorem setFn_accepts (v : Fn) : (d.setFn n v).accepts = d.accepts := rfl
@[simp] theorem setFn_dones (v : Fn) : (d.setFn n v).dones = d.dones := rfl
@[simp] theorem setFn_cmdLast (v : Fn) : (d.setFn n v).cmdLast = d.cmdLast := rfl
@[simp] theorem setFn_fetched (v : Fn) : (d.setFn n v).fetched = d.fetched := rfl
@[simp] theorem setFn_tless (v : Fn) : (d.setFn n v).tless = d.tless := rfl
@[simp] theorem setFn_nvm (v : Fn) : (d.setFn n v).nvm = d.nvm := rfl
@[simp] theorem setFn_mdt (v : Fn) : (d.setFn n v).mdt = d.mdt := rfl
@[simp] theorem setFn_fz (v : Fn) : (d.setFn n v).fz = d.fz := rfl
@[simp] theorem setFn_tw (v : Fn) : (d.setFn n v).tw = d.tw := rfl
@[simp] theorem setFn_emg (v : Fn) : (d.setFn n v).emg = d.emg := rfl
@[simp] theorem setFn_sbe (v : Fn) : (d.setFn n v).sbe = d.sbe := rfl
@[simp] theorem setFn_faults (v : Fn) : (d.setFn n v).faults = d.faults := rfl
@[simp] theorem setFn_nonce (v : Fn) : (d.setFn n v).nonce = d.nonce := rfl
@[simp] theorem setFn_restartReq (v : Fn) : (d.setFn n v).restartReq = d.restartReq := rfl
@[simp] theorem setFn_restartTag (v : Fn) : (d.setFn n v).restartTag = d.restartTag := rfl
@[simp] theorem setFn_out (v : Fn) : (d.setFn n v).out = d.out := rfl
@[simp] theorem setFn_lastRead (v : Fn) : (d.setFn n v).lastRead = d.lastRead := rfl
@[simp] theorem setFn_mirror (v : Fn) : (d.setFn n v).mirror = d.mirror := rfl
@[simp] theorem setFn_mirSeq (v : Fn) : (d.setFn n v).mirSeq = d.mirSeq := rfl
@[simp] theorem setFn_mirSec (v : Fn) : (d.setFn n v).mirSec = d.mirSec := rfl
@[simp] theorem setFn_exports (v : Fn) : (d.setFn n v).exports = d.exports := rfl
@[simp] theorem setFn_draw (v : Fn) : (d.setFn n v).draw = d.draw := rfl
@[simp] theorem setFn_chans (v : Fn) : (d.setFn n v).chans = d.chans := rfl
@[simp] theorem setFn_dies (v : Fn) : (d.setFn n v).dies = d.dies := rfl
@[simp] theorem setFn_prs (v : Fn) : (d.setFn n v).prs = d.prs := rfl
@[simp] theorem setFn_objs (v : Fn) : (d.setFn n v).objs = d.objs := rfl
@[simp] theorem setFn_ctxs (v : Fn) : (d.setFn n v).ctxs = d.ctxs := rfl
@[simp] theorem setFn_shapes (v : Fn) : (d.setFn n v).shapes = d.shapes := rfl
@[simp] theorem setFn_geo (v : Fn) : (d.setFn n v).geo = d.geo := rfl
@[simp] theorem setFn_rend (v : Fn) : (d.setFn n v).rend = d.rend := rfl
@[simp] theorem setFn_streams (v : Fn) : (d.setFn n v).streams = d.streams := rfl
@[simp] theorem setFn_ports (v : Fn) : (d.setFn n v).ports = d.ports := rfl
@[simp] theorem setFn_mics (v : Fn) : (d.setFn n v).mics = d.mics := rfl
@[simp] theorem setFn_pdm (v : Fn) : (d.setFn n v).pdm = d.pdm := rfl
@[simp] theorem setFn_chains (v : Fn) : (d.setFn n v).chains = d.chains := rfl
@[simp] theorem setFn_period (v : Fn) : (d.setFn n v).period = d.period := rfl
@[simp] theorem setFn_railBudget (v : Fn) : (d.setFn n v).railBudget = d.railBudget := rfl
@[simp] theorem setFn_acou (v : Fn) : (d.setFn n v).acou = d.acou := rfl

/-! ### After `setRing` -/

@[simp] theorem setRing_ring (v : Ring) : (d.setRing n v).ring n = v := Tab.get_set_same ..
theorem setRing_ring_other (v : Ring) (h : m ≠ n) : (d.setRing n v).ring m = d.ring m := Tab.get_set_other _ _ _ h
@[simp] theorem setRing_dom (v : Ring) : (d.setRing n v).dom m = d.dom m := rfl
@[simp] theorem setRing_path (v : Ring) : (d.setRing n v).path m = d.path m := rfl
@[simp] theorem setRing_fn (v : Ring) : (d.setRing n v).fn m = d.fn m := rfl
@[simp] theorem setRing_mbx (v : Ring) : (d.setRing n v).mbx m = d.mbx m := rfl
@[simp] theorem setRing_tag (v : Ring) : (d.setRing n v).tag m = d.tag m := rfl
@[simp] theorem setRing_chan (v : Ring) : (d.setRing n v).chan m = d.chan m := rfl
@[simp] theorem setRing_die (v : Ring) : (d.setRing n v).die m = d.die m := rfl
@[simp] theorem setRing_pr (v : Ring) : (d.setRing n v).pr m = d.pr m := rfl
@[simp] theorem setRing_obj (v : Ring) : (d.setRing n v).obj m = d.obj m := rfl
@[simp] theorem setRing_ctx (v : Ring) : (d.setRing n v).ctx m = d.ctx m := rfl
@[simp] theorem setRing_shape (v : Ring) : (d.setRing n v).shape m = d.shape m := rfl
@[simp] theorem setRing_stream (v : Ring) : (d.setRing n v).stream m = d.stream m := rfl
@[simp] theorem setRing_port (v : Ring) : (d.setRing n v).port m = d.port m := rfl
@[simp] theorem setRing_mic (v : Ring) : (d.setRing n v).mic m = d.mic m := rfl
@[simp] theorem setRing_chain (v : Ring) : (d.setRing n v).chain m = d.chain m := rfl
@[simp] theorem setRing_sys (v : Ring) : (d.setRing n v).sys = d.sys := rfl
@[simp] theorem setRing_tb (v : Ring) : (d.setRing n v).tb = d.tb := rfl
@[simp] theorem setRing_doms (v : Ring) : (d.setRing n v).doms = d.doms := rfl
@[simp] theorem setRing_paths (v : Ring) : (d.setRing n v).paths = d.paths := rfl
@[simp] theorem setRing_fns (v : Ring) : (d.setRing n v).fns = d.fns := rfl
@[simp] theorem setRing_trn (v : Ring) : (d.setRing n v).trn = d.trn := rfl
@[simp] theorem setRing_link (v : Ring) : (d.setRing n v).link = d.link := rfl
@[simp] theorem setRing_mbxs (v : Ring) : (d.setRing n v).mbxs = d.mbxs := rfl
@[simp] theorem setRing_tags (v : Ring) : (d.setRing n v).tags = d.tags := rfl
@[simp] theorem setRing_accepts (v : Ring) : (d.setRing n v).accepts = d.accepts := rfl
@[simp] theorem setRing_dones (v : Ring) : (d.setRing n v).dones = d.dones := rfl
@[simp] theorem setRing_cmdLast (v : Ring) : (d.setRing n v).cmdLast = d.cmdLast := rfl
@[simp] theorem setRing_fetched (v : Ring) : (d.setRing n v).fetched = d.fetched := rfl
@[simp] theorem setRing_tless (v : Ring) : (d.setRing n v).tless = d.tless := rfl
@[simp] theorem setRing_nvm (v : Ring) : (d.setRing n v).nvm = d.nvm := rfl
@[simp] theorem setRing_mdt (v : Ring) : (d.setRing n v).mdt = d.mdt := rfl
@[simp] theorem setRing_fz (v : Ring) : (d.setRing n v).fz = d.fz := rfl
@[simp] theorem setRing_tw (v : Ring) : (d.setRing n v).tw = d.tw := rfl
@[simp] theorem setRing_emg (v : Ring) : (d.setRing n v).emg = d.emg := rfl
@[simp] theorem setRing_sbe (v : Ring) : (d.setRing n v).sbe = d.sbe := rfl
@[simp] theorem setRing_faults (v : Ring) : (d.setRing n v).faults = d.faults := rfl
@[simp] theorem setRing_nonce (v : Ring) : (d.setRing n v).nonce = d.nonce := rfl
@[simp] theorem setRing_restartReq (v : Ring) : (d.setRing n v).restartReq = d.restartReq := rfl
@[simp] theorem setRing_restartTag (v : Ring) : (d.setRing n v).restartTag = d.restartTag := rfl
@[simp] theorem setRing_out (v : Ring) : (d.setRing n v).out = d.out := rfl
@[simp] theorem setRing_lastRead (v : Ring) : (d.setRing n v).lastRead = d.lastRead := rfl
@[simp] theorem setRing_mirror (v : Ring) : (d.setRing n v).mirror = d.mirror := rfl
@[simp] theorem setRing_mirSeq (v : Ring) : (d.setRing n v).mirSeq = d.mirSeq := rfl
@[simp] theorem setRing_mirSec (v : Ring) : (d.setRing n v).mirSec = d.mirSec := rfl
@[simp] theorem setRing_exports (v : Ring) : (d.setRing n v).exports = d.exports := rfl
@[simp] theorem setRing_draw (v : Ring) : (d.setRing n v).draw = d.draw := rfl
@[simp] theorem setRing_chans (v : Ring) : (d.setRing n v).chans = d.chans := rfl
@[simp] theorem setRing_dies (v : Ring) : (d.setRing n v).dies = d.dies := rfl
@[simp] theorem setRing_prs (v : Ring) : (d.setRing n v).prs = d.prs := rfl
@[simp] theorem setRing_objs (v : Ring) : (d.setRing n v).objs = d.objs := rfl
@[simp] theorem setRing_ctxs (v : Ring) : (d.setRing n v).ctxs = d.ctxs := rfl
@[simp] theorem setRing_shapes (v : Ring) : (d.setRing n v).shapes = d.shapes := rfl
@[simp] theorem setRing_geo (v : Ring) : (d.setRing n v).geo = d.geo := rfl
@[simp] theorem setRing_rend (v : Ring) : (d.setRing n v).rend = d.rend := rfl
@[simp] theorem setRing_streams (v : Ring) : (d.setRing n v).streams = d.streams := rfl
@[simp] theorem setRing_ports (v : Ring) : (d.setRing n v).ports = d.ports := rfl
@[simp] theorem setRing_mics (v : Ring) : (d.setRing n v).mics = d.mics := rfl
@[simp] theorem setRing_pdm (v : Ring) : (d.setRing n v).pdm = d.pdm := rfl
@[simp] theorem setRing_chains (v : Ring) : (d.setRing n v).chains = d.chains := rfl
@[simp] theorem setRing_period (v : Ring) : (d.setRing n v).period = d.period := rfl
@[simp] theorem setRing_railBudget (v : Ring) : (d.setRing n v).railBudget = d.railBudget := rfl
@[simp] theorem setRing_acou (v : Ring) : (d.setRing n v).acou = d.acou := rfl

/-! ### After `setMbx` -/

@[simp] theorem setMbx_mbx (v : Mbx) : (d.setMbx n v).mbx n = v := Tab.get_set_same ..
theorem setMbx_mbx_other (v : Mbx) (h : m ≠ n) : (d.setMbx n v).mbx m = d.mbx m := Tab.get_set_other _ _ _ h
@[simp] theorem setMbx_dom (v : Mbx) : (d.setMbx n v).dom m = d.dom m := rfl
@[simp] theorem setMbx_path (v : Mbx) : (d.setMbx n v).path m = d.path m := rfl
@[simp] theorem setMbx_fn (v : Mbx) : (d.setMbx n v).fn m = d.fn m := rfl
@[simp] theorem setMbx_ring (v : Mbx) : (d.setMbx n v).ring m = d.ring m := rfl
@[simp] theorem setMbx_tag (v : Mbx) : (d.setMbx n v).tag m = d.tag m := rfl
@[simp] theorem setMbx_chan (v : Mbx) : (d.setMbx n v).chan m = d.chan m := rfl
@[simp] theorem setMbx_die (v : Mbx) : (d.setMbx n v).die m = d.die m := rfl
@[simp] theorem setMbx_pr (v : Mbx) : (d.setMbx n v).pr m = d.pr m := rfl
@[simp] theorem setMbx_obj (v : Mbx) : (d.setMbx n v).obj m = d.obj m := rfl
@[simp] theorem setMbx_ctx (v : Mbx) : (d.setMbx n v).ctx m = d.ctx m := rfl
@[simp] theorem setMbx_shape (v : Mbx) : (d.setMbx n v).shape m = d.shape m := rfl
@[simp] theorem setMbx_stream (v : Mbx) : (d.setMbx n v).stream m = d.stream m := rfl
@[simp] theorem setMbx_port (v : Mbx) : (d.setMbx n v).port m = d.port m := rfl
@[simp] theorem setMbx_mic (v : Mbx) : (d.setMbx n v).mic m = d.mic m := rfl
@[simp] theorem setMbx_chain (v : Mbx) : (d.setMbx n v).chain m = d.chain m := rfl
@[simp] theorem setMbx_sys (v : Mbx) : (d.setMbx n v).sys = d.sys := rfl
@[simp] theorem setMbx_tb (v : Mbx) : (d.setMbx n v).tb = d.tb := rfl
@[simp] theorem setMbx_doms (v : Mbx) : (d.setMbx n v).doms = d.doms := rfl
@[simp] theorem setMbx_paths (v : Mbx) : (d.setMbx n v).paths = d.paths := rfl
@[simp] theorem setMbx_fns (v : Mbx) : (d.setMbx n v).fns = d.fns := rfl
@[simp] theorem setMbx_trn (v : Mbx) : (d.setMbx n v).trn = d.trn := rfl
@[simp] theorem setMbx_link (v : Mbx) : (d.setMbx n v).link = d.link := rfl
@[simp] theorem setMbx_rings (v : Mbx) : (d.setMbx n v).rings = d.rings := rfl
@[simp] theorem setMbx_tags (v : Mbx) : (d.setMbx n v).tags = d.tags := rfl
@[simp] theorem setMbx_accepts (v : Mbx) : (d.setMbx n v).accepts = d.accepts := rfl
@[simp] theorem setMbx_dones (v : Mbx) : (d.setMbx n v).dones = d.dones := rfl
@[simp] theorem setMbx_cmdLast (v : Mbx) : (d.setMbx n v).cmdLast = d.cmdLast := rfl
@[simp] theorem setMbx_fetched (v : Mbx) : (d.setMbx n v).fetched = d.fetched := rfl
@[simp] theorem setMbx_tless (v : Mbx) : (d.setMbx n v).tless = d.tless := rfl
@[simp] theorem setMbx_nvm (v : Mbx) : (d.setMbx n v).nvm = d.nvm := rfl
@[simp] theorem setMbx_mdt (v : Mbx) : (d.setMbx n v).mdt = d.mdt := rfl
@[simp] theorem setMbx_fz (v : Mbx) : (d.setMbx n v).fz = d.fz := rfl
@[simp] theorem setMbx_tw (v : Mbx) : (d.setMbx n v).tw = d.tw := rfl
@[simp] theorem setMbx_emg (v : Mbx) : (d.setMbx n v).emg = d.emg := rfl
@[simp] theorem setMbx_sbe (v : Mbx) : (d.setMbx n v).sbe = d.sbe := rfl
@[simp] theorem setMbx_faults (v : Mbx) : (d.setMbx n v).faults = d.faults := rfl
@[simp] theorem setMbx_nonce (v : Mbx) : (d.setMbx n v).nonce = d.nonce := rfl
@[simp] theorem setMbx_restartReq (v : Mbx) : (d.setMbx n v).restartReq = d.restartReq := rfl
@[simp] theorem setMbx_restartTag (v : Mbx) : (d.setMbx n v).restartTag = d.restartTag := rfl
@[simp] theorem setMbx_out (v : Mbx) : (d.setMbx n v).out = d.out := rfl
@[simp] theorem setMbx_lastRead (v : Mbx) : (d.setMbx n v).lastRead = d.lastRead := rfl
@[simp] theorem setMbx_mirror (v : Mbx) : (d.setMbx n v).mirror = d.mirror := rfl
@[simp] theorem setMbx_mirSeq (v : Mbx) : (d.setMbx n v).mirSeq = d.mirSeq := rfl
@[simp] theorem setMbx_mirSec (v : Mbx) : (d.setMbx n v).mirSec = d.mirSec := rfl
@[simp] theorem setMbx_exports (v : Mbx) : (d.setMbx n v).exports = d.exports := rfl
@[simp] theorem setMbx_draw (v : Mbx) : (d.setMbx n v).draw = d.draw := rfl
@[simp] theorem setMbx_chans (v : Mbx) : (d.setMbx n v).chans = d.chans := rfl
@[simp] theorem setMbx_dies (v : Mbx) : (d.setMbx n v).dies = d.dies := rfl
@[simp] theorem setMbx_prs (v : Mbx) : (d.setMbx n v).prs = d.prs := rfl
@[simp] theorem setMbx_objs (v : Mbx) : (d.setMbx n v).objs = d.objs := rfl
@[simp] theorem setMbx_ctxs (v : Mbx) : (d.setMbx n v).ctxs = d.ctxs := rfl
@[simp] theorem setMbx_shapes (v : Mbx) : (d.setMbx n v).shapes = d.shapes := rfl
@[simp] theorem setMbx_geo (v : Mbx) : (d.setMbx n v).geo = d.geo := rfl
@[simp] theorem setMbx_rend (v : Mbx) : (d.setMbx n v).rend = d.rend := rfl
@[simp] theorem setMbx_streams (v : Mbx) : (d.setMbx n v).streams = d.streams := rfl
@[simp] theorem setMbx_ports (v : Mbx) : (d.setMbx n v).ports = d.ports := rfl
@[simp] theorem setMbx_mics (v : Mbx) : (d.setMbx n v).mics = d.mics := rfl
@[simp] theorem setMbx_pdm (v : Mbx) : (d.setMbx n v).pdm = d.pdm := rfl
@[simp] theorem setMbx_chains (v : Mbx) : (d.setMbx n v).chains = d.chains := rfl
@[simp] theorem setMbx_period (v : Mbx) : (d.setMbx n v).period = d.period := rfl
@[simp] theorem setMbx_railBudget (v : Mbx) : (d.setMbx n v).railBudget = d.railBudget := rfl
@[simp] theorem setMbx_acou (v : Mbx) : (d.setMbx n v).acou = d.acou := rfl

/-! ### After `setTag` -/

@[simp] theorem setTag_tag (v : Tag) : (d.setTag n v).tag n = v := Tab.get_set_same ..
theorem setTag_tag_other (v : Tag) (h : m ≠ n) : (d.setTag n v).tag m = d.tag m := Tab.get_set_other _ _ _ h
@[simp] theorem setTag_dom (v : Tag) : (d.setTag n v).dom m = d.dom m := rfl
@[simp] theorem setTag_path (v : Tag) : (d.setTag n v).path m = d.path m := rfl
@[simp] theorem setTag_fn (v : Tag) : (d.setTag n v).fn m = d.fn m := rfl
@[simp] theorem setTag_ring (v : Tag) : (d.setTag n v).ring m = d.ring m := rfl
@[simp] theorem setTag_mbx (v : Tag) : (d.setTag n v).mbx m = d.mbx m := rfl
@[simp] theorem setTag_chan (v : Tag) : (d.setTag n v).chan m = d.chan m := rfl
@[simp] theorem setTag_die (v : Tag) : (d.setTag n v).die m = d.die m := rfl
@[simp] theorem setTag_pr (v : Tag) : (d.setTag n v).pr m = d.pr m := rfl
@[simp] theorem setTag_obj (v : Tag) : (d.setTag n v).obj m = d.obj m := rfl
@[simp] theorem setTag_ctx (v : Tag) : (d.setTag n v).ctx m = d.ctx m := rfl
@[simp] theorem setTag_shape (v : Tag) : (d.setTag n v).shape m = d.shape m := rfl
@[simp] theorem setTag_stream (v : Tag) : (d.setTag n v).stream m = d.stream m := rfl
@[simp] theorem setTag_port (v : Tag) : (d.setTag n v).port m = d.port m := rfl
@[simp] theorem setTag_mic (v : Tag) : (d.setTag n v).mic m = d.mic m := rfl
@[simp] theorem setTag_chain (v : Tag) : (d.setTag n v).chain m = d.chain m := rfl
@[simp] theorem setTag_sys (v : Tag) : (d.setTag n v).sys = d.sys := rfl
@[simp] theorem setTag_tb (v : Tag) : (d.setTag n v).tb = d.tb := rfl
@[simp] theorem setTag_doms (v : Tag) : (d.setTag n v).doms = d.doms := rfl
@[simp] theorem setTag_paths (v : Tag) : (d.setTag n v).paths = d.paths := rfl
@[simp] theorem setTag_fns (v : Tag) : (d.setTag n v).fns = d.fns := rfl
@[simp] theorem setTag_trn (v : Tag) : (d.setTag n v).trn = d.trn := rfl
@[simp] theorem setTag_link (v : Tag) : (d.setTag n v).link = d.link := rfl
@[simp] theorem setTag_rings (v : Tag) : (d.setTag n v).rings = d.rings := rfl
@[simp] theorem setTag_mbxs (v : Tag) : (d.setTag n v).mbxs = d.mbxs := rfl
@[simp] theorem setTag_accepts (v : Tag) : (d.setTag n v).accepts = d.accepts := rfl
@[simp] theorem setTag_dones (v : Tag) : (d.setTag n v).dones = d.dones := rfl
@[simp] theorem setTag_cmdLast (v : Tag) : (d.setTag n v).cmdLast = d.cmdLast := rfl
@[simp] theorem setTag_fetched (v : Tag) : (d.setTag n v).fetched = d.fetched := rfl
@[simp] theorem setTag_tless (v : Tag) : (d.setTag n v).tless = d.tless := rfl
@[simp] theorem setTag_nvm (v : Tag) : (d.setTag n v).nvm = d.nvm := rfl
@[simp] theorem setTag_mdt (v : Tag) : (d.setTag n v).mdt = d.mdt := rfl
@[simp] theorem setTag_fz (v : Tag) : (d.setTag n v).fz = d.fz := rfl
@[simp] theorem setTag_tw (v : Tag) : (d.setTag n v).tw = d.tw := rfl
@[simp] theorem setTag_emg (v : Tag) : (d.setTag n v).emg = d.emg := rfl
@[simp] theorem setTag_sbe (v : Tag) : (d.setTag n v).sbe = d.sbe := rfl
@[simp] theorem setTag_faults (v : Tag) : (d.setTag n v).faults = d.faults := rfl
@[simp] theorem setTag_nonce (v : Tag) : (d.setTag n v).nonce = d.nonce := rfl
@[simp] theorem setTag_restartReq (v : Tag) : (d.setTag n v).restartReq = d.restartReq := rfl
@[simp] theorem setTag_restartTag (v : Tag) : (d.setTag n v).restartTag = d.restartTag := rfl
@[simp] theorem setTag_out (v : Tag) : (d.setTag n v).out = d.out := rfl
@[simp] theorem setTag_lastRead (v : Tag) : (d.setTag n v).lastRead = d.lastRead := rfl
@[simp] theorem setTag_mirror (v : Tag) : (d.setTag n v).mirror = d.mirror := rfl
@[simp] theorem setTag_mirSeq (v : Tag) : (d.setTag n v).mirSeq = d.mirSeq := rfl
@[simp] theorem setTag_mirSec (v : Tag) : (d.setTag n v).mirSec = d.mirSec := rfl
@[simp] theorem setTag_exports (v : Tag) : (d.setTag n v).exports = d.exports := rfl
@[simp] theorem setTag_draw (v : Tag) : (d.setTag n v).draw = d.draw := rfl
@[simp] theorem setTag_chans (v : Tag) : (d.setTag n v).chans = d.chans := rfl
@[simp] theorem setTag_dies (v : Tag) : (d.setTag n v).dies = d.dies := rfl
@[simp] theorem setTag_prs (v : Tag) : (d.setTag n v).prs = d.prs := rfl
@[simp] theorem setTag_objs (v : Tag) : (d.setTag n v).objs = d.objs := rfl
@[simp] theorem setTag_ctxs (v : Tag) : (d.setTag n v).ctxs = d.ctxs := rfl
@[simp] theorem setTag_shapes (v : Tag) : (d.setTag n v).shapes = d.shapes := rfl
@[simp] theorem setTag_geo (v : Tag) : (d.setTag n v).geo = d.geo := rfl
@[simp] theorem setTag_rend (v : Tag) : (d.setTag n v).rend = d.rend := rfl
@[simp] theorem setTag_streams (v : Tag) : (d.setTag n v).streams = d.streams := rfl
@[simp] theorem setTag_ports (v : Tag) : (d.setTag n v).ports = d.ports := rfl
@[simp] theorem setTag_mics (v : Tag) : (d.setTag n v).mics = d.mics := rfl
@[simp] theorem setTag_pdm (v : Tag) : (d.setTag n v).pdm = d.pdm := rfl
@[simp] theorem setTag_chains (v : Tag) : (d.setTag n v).chains = d.chains := rfl
@[simp] theorem setTag_period (v : Tag) : (d.setTag n v).period = d.period := rfl
@[simp] theorem setTag_railBudget (v : Tag) : (d.setTag n v).railBudget = d.railBudget := rfl
@[simp] theorem setTag_acou (v : Tag) : (d.setTag n v).acou = d.acou := rfl

/-! ### After `setChan` -/

@[simp] theorem setChan_chan (v : Chan) : (d.setChan n v).chan n = v := Tab.get_set_same ..
theorem setChan_chan_other (v : Chan) (h : m ≠ n) : (d.setChan n v).chan m = d.chan m := Tab.get_set_other _ _ _ h
@[simp] theorem setChan_dom (v : Chan) : (d.setChan n v).dom m = d.dom m := rfl
@[simp] theorem setChan_path (v : Chan) : (d.setChan n v).path m = d.path m := rfl
@[simp] theorem setChan_fn (v : Chan) : (d.setChan n v).fn m = d.fn m := rfl
@[simp] theorem setChan_ring (v : Chan) : (d.setChan n v).ring m = d.ring m := rfl
@[simp] theorem setChan_mbx (v : Chan) : (d.setChan n v).mbx m = d.mbx m := rfl
@[simp] theorem setChan_tag (v : Chan) : (d.setChan n v).tag m = d.tag m := rfl
@[simp] theorem setChan_die (v : Chan) : (d.setChan n v).die m = d.die m := rfl
@[simp] theorem setChan_pr (v : Chan) : (d.setChan n v).pr m = d.pr m := rfl
@[simp] theorem setChan_obj (v : Chan) : (d.setChan n v).obj m = d.obj m := rfl
@[simp] theorem setChan_ctx (v : Chan) : (d.setChan n v).ctx m = d.ctx m := rfl
@[simp] theorem setChan_shape (v : Chan) : (d.setChan n v).shape m = d.shape m := rfl
@[simp] theorem setChan_stream (v : Chan) : (d.setChan n v).stream m = d.stream m := rfl
@[simp] theorem setChan_port (v : Chan) : (d.setChan n v).port m = d.port m := rfl
@[simp] theorem setChan_mic (v : Chan) : (d.setChan n v).mic m = d.mic m := rfl
@[simp] theorem setChan_chain (v : Chan) : (d.setChan n v).chain m = d.chain m := rfl
@[simp] theorem setChan_sys (v : Chan) : (d.setChan n v).sys = d.sys := rfl
@[simp] theorem setChan_tb (v : Chan) : (d.setChan n v).tb = d.tb := rfl
@[simp] theorem setChan_doms (v : Chan) : (d.setChan n v).doms = d.doms := rfl
@[simp] theorem setChan_paths (v : Chan) : (d.setChan n v).paths = d.paths := rfl
@[simp] theorem setChan_fns (v : Chan) : (d.setChan n v).fns = d.fns := rfl
@[simp] theorem setChan_trn (v : Chan) : (d.setChan n v).trn = d.trn := rfl
@[simp] theorem setChan_link (v : Chan) : (d.setChan n v).link = d.link := rfl
@[simp] theorem setChan_rings (v : Chan) : (d.setChan n v).rings = d.rings := rfl
@[simp] theorem setChan_mbxs (v : Chan) : (d.setChan n v).mbxs = d.mbxs := rfl
@[simp] theorem setChan_tags (v : Chan) : (d.setChan n v).tags = d.tags := rfl
@[simp] theorem setChan_accepts (v : Chan) : (d.setChan n v).accepts = d.accepts := rfl
@[simp] theorem setChan_dones (v : Chan) : (d.setChan n v).dones = d.dones := rfl
@[simp] theorem setChan_cmdLast (v : Chan) : (d.setChan n v).cmdLast = d.cmdLast := rfl
@[simp] theorem setChan_fetched (v : Chan) : (d.setChan n v).fetched = d.fetched := rfl
@[simp] theorem setChan_tless (v : Chan) : (d.setChan n v).tless = d.tless := rfl
@[simp] theorem setChan_nvm (v : Chan) : (d.setChan n v).nvm = d.nvm := rfl
@[simp] theorem setChan_mdt (v : Chan) : (d.setChan n v).mdt = d.mdt := rfl
@[simp] theorem setChan_fz (v : Chan) : (d.setChan n v).fz = d.fz := rfl
@[simp] theorem setChan_tw (v : Chan) : (d.setChan n v).tw = d.tw := rfl
@[simp] theorem setChan_emg (v : Chan) : (d.setChan n v).emg = d.emg := rfl
@[simp] theorem setChan_sbe (v : Chan) : (d.setChan n v).sbe = d.sbe := rfl
@[simp] theorem setChan_faults (v : Chan) : (d.setChan n v).faults = d.faults := rfl
@[simp] theorem setChan_nonce (v : Chan) : (d.setChan n v).nonce = d.nonce := rfl
@[simp] theorem setChan_restartReq (v : Chan) : (d.setChan n v).restartReq = d.restartReq := rfl
@[simp] theorem setChan_restartTag (v : Chan) : (d.setChan n v).restartTag = d.restartTag := rfl
@[simp] theorem setChan_out (v : Chan) : (d.setChan n v).out = d.out := rfl
@[simp] theorem setChan_lastRead (v : Chan) : (d.setChan n v).lastRead = d.lastRead := rfl
@[simp] theorem setChan_mirror (v : Chan) : (d.setChan n v).mirror = d.mirror := rfl
@[simp] theorem setChan_mirSeq (v : Chan) : (d.setChan n v).mirSeq = d.mirSeq := rfl
@[simp] theorem setChan_mirSec (v : Chan) : (d.setChan n v).mirSec = d.mirSec := rfl
@[simp] theorem setChan_exports (v : Chan) : (d.setChan n v).exports = d.exports := rfl
@[simp] theorem setChan_draw (v : Chan) : (d.setChan n v).draw = d.draw := rfl
@[simp] theorem setChan_dies (v : Chan) : (d.setChan n v).dies = d.dies := rfl
@[simp] theorem setChan_prs (v : Chan) : (d.setChan n v).prs = d.prs := rfl
@[simp] theorem setChan_objs (v : Chan) : (d.setChan n v).objs = d.objs := rfl
@[simp] theorem setChan_ctxs (v : Chan) : (d.setChan n v).ctxs = d.ctxs := rfl
@[simp] theorem setChan_shapes (v : Chan) : (d.setChan n v).shapes = d.shapes := rfl
@[simp] theorem setChan_geo (v : Chan) : (d.setChan n v).geo = d.geo := rfl
@[simp] theorem setChan_rend (v : Chan) : (d.setChan n v).rend = d.rend := rfl
@[simp] theorem setChan_streams (v : Chan) : (d.setChan n v).streams = d.streams := rfl
@[simp] theorem setChan_ports (v : Chan) : (d.setChan n v).ports = d.ports := rfl
@[simp] theorem setChan_mics (v : Chan) : (d.setChan n v).mics = d.mics := rfl
@[simp] theorem setChan_pdm (v : Chan) : (d.setChan n v).pdm = d.pdm := rfl
@[simp] theorem setChan_chains (v : Chan) : (d.setChan n v).chains = d.chains := rfl
@[simp] theorem setChan_period (v : Chan) : (d.setChan n v).period = d.period := rfl
@[simp] theorem setChan_railBudget (v : Chan) : (d.setChan n v).railBudget = d.railBudget := rfl
@[simp] theorem setChan_acou (v : Chan) : (d.setChan n v).acou = d.acou := rfl

/-! ### After `setDie` -/

@[simp] theorem setDie_die (v : Die) : (d.setDie n v).die n = v := Tab.get_set_same ..
theorem setDie_die_other (v : Die) (h : m ≠ n) : (d.setDie n v).die m = d.die m := Tab.get_set_other _ _ _ h
@[simp] theorem setDie_dom (v : Die) : (d.setDie n v).dom m = d.dom m := rfl
@[simp] theorem setDie_path (v : Die) : (d.setDie n v).path m = d.path m := rfl
@[simp] theorem setDie_fn (v : Die) : (d.setDie n v).fn m = d.fn m := rfl
@[simp] theorem setDie_ring (v : Die) : (d.setDie n v).ring m = d.ring m := rfl
@[simp] theorem setDie_mbx (v : Die) : (d.setDie n v).mbx m = d.mbx m := rfl
@[simp] theorem setDie_tag (v : Die) : (d.setDie n v).tag m = d.tag m := rfl
@[simp] theorem setDie_chan (v : Die) : (d.setDie n v).chan m = d.chan m := rfl
@[simp] theorem setDie_pr (v : Die) : (d.setDie n v).pr m = d.pr m := rfl
@[simp] theorem setDie_obj (v : Die) : (d.setDie n v).obj m = d.obj m := rfl
@[simp] theorem setDie_ctx (v : Die) : (d.setDie n v).ctx m = d.ctx m := rfl
@[simp] theorem setDie_shape (v : Die) : (d.setDie n v).shape m = d.shape m := rfl
@[simp] theorem setDie_stream (v : Die) : (d.setDie n v).stream m = d.stream m := rfl
@[simp] theorem setDie_port (v : Die) : (d.setDie n v).port m = d.port m := rfl
@[simp] theorem setDie_mic (v : Die) : (d.setDie n v).mic m = d.mic m := rfl
@[simp] theorem setDie_chain (v : Die) : (d.setDie n v).chain m = d.chain m := rfl
@[simp] theorem setDie_sys (v : Die) : (d.setDie n v).sys = d.sys := rfl
@[simp] theorem setDie_tb (v : Die) : (d.setDie n v).tb = d.tb := rfl
@[simp] theorem setDie_doms (v : Die) : (d.setDie n v).doms = d.doms := rfl
@[simp] theorem setDie_paths (v : Die) : (d.setDie n v).paths = d.paths := rfl
@[simp] theorem setDie_fns (v : Die) : (d.setDie n v).fns = d.fns := rfl
@[simp] theorem setDie_trn (v : Die) : (d.setDie n v).trn = d.trn := rfl
@[simp] theorem setDie_link (v : Die) : (d.setDie n v).link = d.link := rfl
@[simp] theorem setDie_rings (v : Die) : (d.setDie n v).rings = d.rings := rfl
@[simp] theorem setDie_mbxs (v : Die) : (d.setDie n v).mbxs = d.mbxs := rfl
@[simp] theorem setDie_tags (v : Die) : (d.setDie n v).tags = d.tags := rfl
@[simp] theorem setDie_accepts (v : Die) : (d.setDie n v).accepts = d.accepts := rfl
@[simp] theorem setDie_dones (v : Die) : (d.setDie n v).dones = d.dones := rfl
@[simp] theorem setDie_cmdLast (v : Die) : (d.setDie n v).cmdLast = d.cmdLast := rfl
@[simp] theorem setDie_fetched (v : Die) : (d.setDie n v).fetched = d.fetched := rfl
@[simp] theorem setDie_tless (v : Die) : (d.setDie n v).tless = d.tless := rfl
@[simp] theorem setDie_nvm (v : Die) : (d.setDie n v).nvm = d.nvm := rfl
@[simp] theorem setDie_mdt (v : Die) : (d.setDie n v).mdt = d.mdt := rfl
@[simp] theorem setDie_fz (v : Die) : (d.setDie n v).fz = d.fz := rfl
@[simp] theorem setDie_tw (v : Die) : (d.setDie n v).tw = d.tw := rfl
@[simp] theorem setDie_emg (v : Die) : (d.setDie n v).emg = d.emg := rfl
@[simp] theorem setDie_sbe (v : Die) : (d.setDie n v).sbe = d.sbe := rfl
@[simp] theorem setDie_faults (v : Die) : (d.setDie n v).faults = d.faults := rfl
@[simp] theorem setDie_nonce (v : Die) : (d.setDie n v).nonce = d.nonce := rfl
@[simp] theorem setDie_restartReq (v : Die) : (d.setDie n v).restartReq = d.restartReq := rfl
@[simp] theorem setDie_restartTag (v : Die) : (d.setDie n v).restartTag = d.restartTag := rfl
@[simp] theorem setDie_out (v : Die) : (d.setDie n v).out = d.out := rfl
@[simp] theorem setDie_lastRead (v : Die) : (d.setDie n v).lastRead = d.lastRead := rfl
@[simp] theorem setDie_mirror (v : Die) : (d.setDie n v).mirror = d.mirror := rfl
@[simp] theorem setDie_mirSeq (v : Die) : (d.setDie n v).mirSeq = d.mirSeq := rfl
@[simp] theorem setDie_mirSec (v : Die) : (d.setDie n v).mirSec = d.mirSec := rfl
@[simp] theorem setDie_exports (v : Die) : (d.setDie n v).exports = d.exports := rfl
@[simp] theorem setDie_draw (v : Die) : (d.setDie n v).draw = d.draw := rfl
@[simp] theorem setDie_chans (v : Die) : (d.setDie n v).chans = d.chans := rfl
@[simp] theorem setDie_prs (v : Die) : (d.setDie n v).prs = d.prs := rfl
@[simp] theorem setDie_objs (v : Die) : (d.setDie n v).objs = d.objs := rfl
@[simp] theorem setDie_ctxs (v : Die) : (d.setDie n v).ctxs = d.ctxs := rfl
@[simp] theorem setDie_shapes (v : Die) : (d.setDie n v).shapes = d.shapes := rfl
@[simp] theorem setDie_geo (v : Die) : (d.setDie n v).geo = d.geo := rfl
@[simp] theorem setDie_rend (v : Die) : (d.setDie n v).rend = d.rend := rfl
@[simp] theorem setDie_streams (v : Die) : (d.setDie n v).streams = d.streams := rfl
@[simp] theorem setDie_ports (v : Die) : (d.setDie n v).ports = d.ports := rfl
@[simp] theorem setDie_mics (v : Die) : (d.setDie n v).mics = d.mics := rfl
@[simp] theorem setDie_pdm (v : Die) : (d.setDie n v).pdm = d.pdm := rfl
@[simp] theorem setDie_chains (v : Die) : (d.setDie n v).chains = d.chains := rfl
@[simp] theorem setDie_period (v : Die) : (d.setDie n v).period = d.period := rfl
@[simp] theorem setDie_railBudget (v : Die) : (d.setDie n v).railBudget = d.railBudget := rfl
@[simp] theorem setDie_acou (v : Die) : (d.setDie n v).acou = d.acou := rfl

/-! ### After `setPr` -/

@[simp] theorem setPr_pr (v : Pair) : (d.setPr n v).pr n = v := Tab.get_set_same ..
theorem setPr_pr_other (v : Pair) (h : m ≠ n) : (d.setPr n v).pr m = d.pr m := Tab.get_set_other _ _ _ h
@[simp] theorem setPr_dom (v : Pair) : (d.setPr n v).dom m = d.dom m := rfl
@[simp] theorem setPr_path (v : Pair) : (d.setPr n v).path m = d.path m := rfl
@[simp] theorem setPr_fn (v : Pair) : (d.setPr n v).fn m = d.fn m := rfl
@[simp] theorem setPr_ring (v : Pair) : (d.setPr n v).ring m = d.ring m := rfl
@[simp] theorem setPr_mbx (v : Pair) : (d.setPr n v).mbx m = d.mbx m := rfl
@[simp] theorem setPr_tag (v : Pair) : (d.setPr n v).tag m = d.tag m := rfl
@[simp] theorem setPr_chan (v : Pair) : (d.setPr n v).chan m = d.chan m := rfl
@[simp] theorem setPr_die (v : Pair) : (d.setPr n v).die m = d.die m := rfl
@[simp] theorem setPr_obj (v : Pair) : (d.setPr n v).obj m = d.obj m := rfl
@[simp] theorem setPr_ctx (v : Pair) : (d.setPr n v).ctx m = d.ctx m := rfl
@[simp] theorem setPr_shape (v : Pair) : (d.setPr n v).shape m = d.shape m := rfl
@[simp] theorem setPr_stream (v : Pair) : (d.setPr n v).stream m = d.stream m := rfl
@[simp] theorem setPr_port (v : Pair) : (d.setPr n v).port m = d.port m := rfl
@[simp] theorem setPr_mic (v : Pair) : (d.setPr n v).mic m = d.mic m := rfl
@[simp] theorem setPr_chain (v : Pair) : (d.setPr n v).chain m = d.chain m := rfl
@[simp] theorem setPr_sys (v : Pair) : (d.setPr n v).sys = d.sys := rfl
@[simp] theorem setPr_tb (v : Pair) : (d.setPr n v).tb = d.tb := rfl
@[simp] theorem setPr_doms (v : Pair) : (d.setPr n v).doms = d.doms := rfl
@[simp] theorem setPr_paths (v : Pair) : (d.setPr n v).paths = d.paths := rfl
@[simp] theorem setPr_fns (v : Pair) : (d.setPr n v).fns = d.fns := rfl
@[simp] theorem setPr_trn (v : Pair) : (d.setPr n v).trn = d.trn := rfl
@[simp] theorem setPr_link (v : Pair) : (d.setPr n v).link = d.link := rfl
@[simp] theorem setPr_rings (v : Pair) : (d.setPr n v).rings = d.rings := rfl
@[simp] theorem setPr_mbxs (v : Pair) : (d.setPr n v).mbxs = d.mbxs := rfl
@[simp] theorem setPr_tags (v : Pair) : (d.setPr n v).tags = d.tags := rfl
@[simp] theorem setPr_accepts (v : Pair) : (d.setPr n v).accepts = d.accepts := rfl
@[simp] theorem setPr_dones (v : Pair) : (d.setPr n v).dones = d.dones := rfl
@[simp] theorem setPr_cmdLast (v : Pair) : (d.setPr n v).cmdLast = d.cmdLast := rfl
@[simp] theorem setPr_fetched (v : Pair) : (d.setPr n v).fetched = d.fetched := rfl
@[simp] theorem setPr_tless (v : Pair) : (d.setPr n v).tless = d.tless := rfl
@[simp] theorem setPr_nvm (v : Pair) : (d.setPr n v).nvm = d.nvm := rfl
@[simp] theorem setPr_mdt (v : Pair) : (d.setPr n v).mdt = d.mdt := rfl
@[simp] theorem setPr_fz (v : Pair) : (d.setPr n v).fz = d.fz := rfl
@[simp] theorem setPr_tw (v : Pair) : (d.setPr n v).tw = d.tw := rfl
@[simp] theorem setPr_emg (v : Pair) : (d.setPr n v).emg = d.emg := rfl
@[simp] theorem setPr_sbe (v : Pair) : (d.setPr n v).sbe = d.sbe := rfl
@[simp] theorem setPr_faults (v : Pair) : (d.setPr n v).faults = d.faults := rfl
@[simp] theorem setPr_nonce (v : Pair) : (d.setPr n v).nonce = d.nonce := rfl
@[simp] theorem setPr_restartReq (v : Pair) : (d.setPr n v).restartReq = d.restartReq := rfl
@[simp] theorem setPr_restartTag (v : Pair) : (d.setPr n v).restartTag = d.restartTag := rfl
@[simp] theorem setPr_out (v : Pair) : (d.setPr n v).out = d.out := rfl
@[simp] theorem setPr_lastRead (v : Pair) : (d.setPr n v).lastRead = d.lastRead := rfl
@[simp] theorem setPr_mirror (v : Pair) : (d.setPr n v).mirror = d.mirror := rfl
@[simp] theorem setPr_mirSeq (v : Pair) : (d.setPr n v).mirSeq = d.mirSeq := rfl
@[simp] theorem setPr_mirSec (v : Pair) : (d.setPr n v).mirSec = d.mirSec := rfl
@[simp] theorem setPr_exports (v : Pair) : (d.setPr n v).exports = d.exports := rfl
@[simp] theorem setPr_draw (v : Pair) : (d.setPr n v).draw = d.draw := rfl
@[simp] theorem setPr_chans (v : Pair) : (d.setPr n v).chans = d.chans := rfl
@[simp] theorem setPr_dies (v : Pair) : (d.setPr n v).dies = d.dies := rfl
@[simp] theorem setPr_objs (v : Pair) : (d.setPr n v).objs = d.objs := rfl
@[simp] theorem setPr_ctxs (v : Pair) : (d.setPr n v).ctxs = d.ctxs := rfl
@[simp] theorem setPr_shapes (v : Pair) : (d.setPr n v).shapes = d.shapes := rfl
@[simp] theorem setPr_geo (v : Pair) : (d.setPr n v).geo = d.geo := rfl
@[simp] theorem setPr_rend (v : Pair) : (d.setPr n v).rend = d.rend := rfl
@[simp] theorem setPr_streams (v : Pair) : (d.setPr n v).streams = d.streams := rfl
@[simp] theorem setPr_ports (v : Pair) : (d.setPr n v).ports = d.ports := rfl
@[simp] theorem setPr_mics (v : Pair) : (d.setPr n v).mics = d.mics := rfl
@[simp] theorem setPr_pdm (v : Pair) : (d.setPr n v).pdm = d.pdm := rfl
@[simp] theorem setPr_chains (v : Pair) : (d.setPr n v).chains = d.chains := rfl
@[simp] theorem setPr_period (v : Pair) : (d.setPr n v).period = d.period := rfl
@[simp] theorem setPr_railBudget (v : Pair) : (d.setPr n v).railBudget = d.railBudget := rfl
@[simp] theorem setPr_acou (v : Pair) : (d.setPr n v).acou = d.acou := rfl

/-! ### After `setObj` -/

@[simp] theorem setObj_obj (v : Obj) : (d.setObj n v).obj n = v := Tab.get_set_same ..
theorem setObj_obj_other (v : Obj) (h : m ≠ n) : (d.setObj n v).obj m = d.obj m := Tab.get_set_other _ _ _ h
@[simp] theorem setObj_dom (v : Obj) : (d.setObj n v).dom m = d.dom m := rfl
@[simp] theorem setObj_path (v : Obj) : (d.setObj n v).path m = d.path m := rfl
@[simp] theorem setObj_fn (v : Obj) : (d.setObj n v).fn m = d.fn m := rfl
@[simp] theorem setObj_ring (v : Obj) : (d.setObj n v).ring m = d.ring m := rfl
@[simp] theorem setObj_mbx (v : Obj) : (d.setObj n v).mbx m = d.mbx m := rfl
@[simp] theorem setObj_tag (v : Obj) : (d.setObj n v).tag m = d.tag m := rfl
@[simp] theorem setObj_chan (v : Obj) : (d.setObj n v).chan m = d.chan m := rfl
@[simp] theorem setObj_die (v : Obj) : (d.setObj n v).die m = d.die m := rfl
@[simp] theorem setObj_pr (v : Obj) : (d.setObj n v).pr m = d.pr m := rfl
@[simp] theorem setObj_ctx (v : Obj) : (d.setObj n v).ctx m = d.ctx m := rfl
@[simp] theorem setObj_shape (v : Obj) : (d.setObj n v).shape m = d.shape m := rfl
@[simp] theorem setObj_stream (v : Obj) : (d.setObj n v).stream m = d.stream m := rfl
@[simp] theorem setObj_port (v : Obj) : (d.setObj n v).port m = d.port m := rfl
@[simp] theorem setObj_mic (v : Obj) : (d.setObj n v).mic m = d.mic m := rfl
@[simp] theorem setObj_chain (v : Obj) : (d.setObj n v).chain m = d.chain m := rfl
@[simp] theorem setObj_sys (v : Obj) : (d.setObj n v).sys = d.sys := rfl
@[simp] theorem setObj_tb (v : Obj) : (d.setObj n v).tb = d.tb := rfl
@[simp] theorem setObj_doms (v : Obj) : (d.setObj n v).doms = d.doms := rfl
@[simp] theorem setObj_paths (v : Obj) : (d.setObj n v).paths = d.paths := rfl
@[simp] theorem setObj_fns (v : Obj) : (d.setObj n v).fns = d.fns := rfl
@[simp] theorem setObj_trn (v : Obj) : (d.setObj n v).trn = d.trn := rfl
@[simp] theorem setObj_link (v : Obj) : (d.setObj n v).link = d.link := rfl
@[simp] theorem setObj_rings (v : Obj) : (d.setObj n v).rings = d.rings := rfl
@[simp] theorem setObj_mbxs (v : Obj) : (d.setObj n v).mbxs = d.mbxs := rfl
@[simp] theorem setObj_tags (v : Obj) : (d.setObj n v).tags = d.tags := rfl
@[simp] theorem setObj_accepts (v : Obj) : (d.setObj n v).accepts = d.accepts := rfl
@[simp] theorem setObj_dones (v : Obj) : (d.setObj n v).dones = d.dones := rfl
@[simp] theorem setObj_cmdLast (v : Obj) : (d.setObj n v).cmdLast = d.cmdLast := rfl
@[simp] theorem setObj_fetched (v : Obj) : (d.setObj n v).fetched = d.fetched := rfl
@[simp] theorem setObj_tless (v : Obj) : (d.setObj n v).tless = d.tless := rfl
@[simp] theorem setObj_nvm (v : Obj) : (d.setObj n v).nvm = d.nvm := rfl
@[simp] theorem setObj_mdt (v : Obj) : (d.setObj n v).mdt = d.mdt := rfl
@[simp] theorem setObj_fz (v : Obj) : (d.setObj n v).fz = d.fz := rfl
@[simp] theorem setObj_tw (v : Obj) : (d.setObj n v).tw = d.tw := rfl
@[simp] theorem setObj_emg (v : Obj) : (d.setObj n v).emg = d.emg := rfl
@[simp] theorem setObj_sbe (v : Obj) : (d.setObj n v).sbe = d.sbe := rfl
@[simp] theorem setObj_faults (v : Obj) : (d.setObj n v).faults = d.faults := rfl
@[simp] theorem setObj_nonce (v : Obj) : (d.setObj n v).nonce = d.nonce := rfl
@[simp] theorem setObj_restartReq (v : Obj) : (d.setObj n v).restartReq = d.restartReq := rfl
@[simp] theorem setObj_restartTag (v : Obj) : (d.setObj n v).restartTag = d.restartTag := rfl
@[simp] theorem setObj_out (v : Obj) : (d.setObj n v).out = d.out := rfl
@[simp] theorem setObj_lastRead (v : Obj) : (d.setObj n v).lastRead = d.lastRead := rfl
@[simp] theorem setObj_mirror (v : Obj) : (d.setObj n v).mirror = d.mirror := rfl
@[simp] theorem setObj_mirSeq (v : Obj) : (d.setObj n v).mirSeq = d.mirSeq := rfl
@[simp] theorem setObj_mirSec (v : Obj) : (d.setObj n v).mirSec = d.mirSec := rfl
@[simp] theorem setObj_exports (v : Obj) : (d.setObj n v).exports = d.exports := rfl
@[simp] theorem setObj_draw (v : Obj) : (d.setObj n v).draw = d.draw := rfl
@[simp] theorem setObj_chans (v : Obj) : (d.setObj n v).chans = d.chans := rfl
@[simp] theorem setObj_dies (v : Obj) : (d.setObj n v).dies = d.dies := rfl
@[simp] theorem setObj_prs (v : Obj) : (d.setObj n v).prs = d.prs := rfl
@[simp] theorem setObj_ctxs (v : Obj) : (d.setObj n v).ctxs = d.ctxs := rfl
@[simp] theorem setObj_shapes (v : Obj) : (d.setObj n v).shapes = d.shapes := rfl
@[simp] theorem setObj_geo (v : Obj) : (d.setObj n v).geo = d.geo := rfl
@[simp] theorem setObj_rend (v : Obj) : (d.setObj n v).rend = d.rend := rfl
@[simp] theorem setObj_streams (v : Obj) : (d.setObj n v).streams = d.streams := rfl
@[simp] theorem setObj_ports (v : Obj) : (d.setObj n v).ports = d.ports := rfl
@[simp] theorem setObj_mics (v : Obj) : (d.setObj n v).mics = d.mics := rfl
@[simp] theorem setObj_pdm (v : Obj) : (d.setObj n v).pdm = d.pdm := rfl
@[simp] theorem setObj_chains (v : Obj) : (d.setObj n v).chains = d.chains := rfl
@[simp] theorem setObj_period (v : Obj) : (d.setObj n v).period = d.period := rfl
@[simp] theorem setObj_railBudget (v : Obj) : (d.setObj n v).railBudget = d.railBudget := rfl
@[simp] theorem setObj_acou (v : Obj) : (d.setObj n v).acou = d.acou := rfl

/-! ### After `setCtx` -/

@[simp] theorem setCtx_ctx (v : Ctx) : (d.setCtx n v).ctx n = v := Tab.get_set_same ..
theorem setCtx_ctx_other (v : Ctx) (h : m ≠ n) : (d.setCtx n v).ctx m = d.ctx m := Tab.get_set_other _ _ _ h
@[simp] theorem setCtx_dom (v : Ctx) : (d.setCtx n v).dom m = d.dom m := rfl
@[simp] theorem setCtx_path (v : Ctx) : (d.setCtx n v).path m = d.path m := rfl
@[simp] theorem setCtx_fn (v : Ctx) : (d.setCtx n v).fn m = d.fn m := rfl
@[simp] theorem setCtx_ring (v : Ctx) : (d.setCtx n v).ring m = d.ring m := rfl
@[simp] theorem setCtx_mbx (v : Ctx) : (d.setCtx n v).mbx m = d.mbx m := rfl
@[simp] theorem setCtx_tag (v : Ctx) : (d.setCtx n v).tag m = d.tag m := rfl
@[simp] theorem setCtx_chan (v : Ctx) : (d.setCtx n v).chan m = d.chan m := rfl
@[simp] theorem setCtx_die (v : Ctx) : (d.setCtx n v).die m = d.die m := rfl
@[simp] theorem setCtx_pr (v : Ctx) : (d.setCtx n v).pr m = d.pr m := rfl
@[simp] theorem setCtx_obj (v : Ctx) : (d.setCtx n v).obj m = d.obj m := rfl
@[simp] theorem setCtx_shape (v : Ctx) : (d.setCtx n v).shape m = d.shape m := rfl
@[simp] theorem setCtx_stream (v : Ctx) : (d.setCtx n v).stream m = d.stream m := rfl
@[simp] theorem setCtx_port (v : Ctx) : (d.setCtx n v).port m = d.port m := rfl
@[simp] theorem setCtx_mic (v : Ctx) : (d.setCtx n v).mic m = d.mic m := rfl
@[simp] theorem setCtx_chain (v : Ctx) : (d.setCtx n v).chain m = d.chain m := rfl
@[simp] theorem setCtx_sys (v : Ctx) : (d.setCtx n v).sys = d.sys := rfl
@[simp] theorem setCtx_tb (v : Ctx) : (d.setCtx n v).tb = d.tb := rfl
@[simp] theorem setCtx_doms (v : Ctx) : (d.setCtx n v).doms = d.doms := rfl
@[simp] theorem setCtx_paths (v : Ctx) : (d.setCtx n v).paths = d.paths := rfl
@[simp] theorem setCtx_fns (v : Ctx) : (d.setCtx n v).fns = d.fns := rfl
@[simp] theorem setCtx_trn (v : Ctx) : (d.setCtx n v).trn = d.trn := rfl
@[simp] theorem setCtx_link (v : Ctx) : (d.setCtx n v).link = d.link := rfl
@[simp] theorem setCtx_rings (v : Ctx) : (d.setCtx n v).rings = d.rings := rfl
@[simp] theorem setCtx_mbxs (v : Ctx) : (d.setCtx n v).mbxs = d.mbxs := rfl
@[simp] theorem setCtx_tags (v : Ctx) : (d.setCtx n v).tags = d.tags := rfl
@[simp] theorem setCtx_accepts (v : Ctx) : (d.setCtx n v).accepts = d.accepts := rfl
@[simp] theorem setCtx_dones (v : Ctx) : (d.setCtx n v).dones = d.dones := rfl
@[simp] theorem setCtx_cmdLast (v : Ctx) : (d.setCtx n v).cmdLast = d.cmdLast := rfl
@[simp] theorem setCtx_fetched (v : Ctx) : (d.setCtx n v).fetched = d.fetched := rfl
@[simp] theorem setCtx_tless (v : Ctx) : (d.setCtx n v).tless = d.tless := rfl
@[simp] theorem setCtx_nvm (v : Ctx) : (d.setCtx n v).nvm = d.nvm := rfl
@[simp] theorem setCtx_mdt (v : Ctx) : (d.setCtx n v).mdt = d.mdt := rfl
@[simp] theorem setCtx_fz (v : Ctx) : (d.setCtx n v).fz = d.fz := rfl
@[simp] theorem setCtx_tw (v : Ctx) : (d.setCtx n v).tw = d.tw := rfl
@[simp] theorem setCtx_emg (v : Ctx) : (d.setCtx n v).emg = d.emg := rfl
@[simp] theorem setCtx_sbe (v : Ctx) : (d.setCtx n v).sbe = d.sbe := rfl
@[simp] theorem setCtx_faults (v : Ctx) : (d.setCtx n v).faults = d.faults := rfl
@[simp] theorem setCtx_nonce (v : Ctx) : (d.setCtx n v).nonce = d.nonce := rfl
@[simp] theorem setCtx_restartReq (v : Ctx) : (d.setCtx n v).restartReq = d.restartReq := rfl
@[simp] theorem setCtx_restartTag (v : Ctx) : (d.setCtx n v).restartTag = d.restartTag := rfl
@[simp] theorem setCtx_out (v : Ctx) : (d.setCtx n v).out = d.out := rfl
@[simp] theorem setCtx_lastRead (v : Ctx) : (d.setCtx n v).lastRead = d.lastRead := rfl
@[simp] theorem setCtx_mirror (v : Ctx) : (d.setCtx n v).mirror = d.mirror := rfl
@[simp] theorem setCtx_mirSeq (v : Ctx) : (d.setCtx n v).mirSeq = d.mirSeq := rfl
@[simp] theorem setCtx_mirSec (v : Ctx) : (d.setCtx n v).mirSec = d.mirSec := rfl
@[simp] theorem setCtx_exports (v : Ctx) : (d.setCtx n v).exports = d.exports := rfl
@[simp] theorem setCtx_draw (v : Ctx) : (d.setCtx n v).draw = d.draw := rfl
@[simp] theorem setCtx_chans (v : Ctx) : (d.setCtx n v).chans = d.chans := rfl
@[simp] theorem setCtx_dies (v : Ctx) : (d.setCtx n v).dies = d.dies := rfl
@[simp] theorem setCtx_prs (v : Ctx) : (d.setCtx n v).prs = d.prs := rfl
@[simp] theorem setCtx_objs (v : Ctx) : (d.setCtx n v).objs = d.objs := rfl
@[simp] theorem setCtx_shapes (v : Ctx) : (d.setCtx n v).shapes = d.shapes := rfl
@[simp] theorem setCtx_geo (v : Ctx) : (d.setCtx n v).geo = d.geo := rfl
@[simp] theorem setCtx_rend (v : Ctx) : (d.setCtx n v).rend = d.rend := rfl
@[simp] theorem setCtx_streams (v : Ctx) : (d.setCtx n v).streams = d.streams := rfl
@[simp] theorem setCtx_ports (v : Ctx) : (d.setCtx n v).ports = d.ports := rfl
@[simp] theorem setCtx_mics (v : Ctx) : (d.setCtx n v).mics = d.mics := rfl
@[simp] theorem setCtx_pdm (v : Ctx) : (d.setCtx n v).pdm = d.pdm := rfl
@[simp] theorem setCtx_chains (v : Ctx) : (d.setCtx n v).chains = d.chains := rfl
@[simp] theorem setCtx_period (v : Ctx) : (d.setCtx n v).period = d.period := rfl
@[simp] theorem setCtx_railBudget (v : Ctx) : (d.setCtx n v).railBudget = d.railBudget := rfl
@[simp] theorem setCtx_acou (v : Ctx) : (d.setCtx n v).acou = d.acou := rfl

/-! ### After `setShape` -/

@[simp] theorem setShape_shape (v : Shape) : (d.setShape n v).shape n = v := Tab.get_set_same ..
theorem setShape_shape_other (v : Shape) (h : m ≠ n) : (d.setShape n v).shape m = d.shape m := Tab.get_set_other _ _ _ h
@[simp] theorem setShape_dom (v : Shape) : (d.setShape n v).dom m = d.dom m := rfl
@[simp] theorem setShape_path (v : Shape) : (d.setShape n v).path m = d.path m := rfl
@[simp] theorem setShape_fn (v : Shape) : (d.setShape n v).fn m = d.fn m := rfl
@[simp] theorem setShape_ring (v : Shape) : (d.setShape n v).ring m = d.ring m := rfl
@[simp] theorem setShape_mbx (v : Shape) : (d.setShape n v).mbx m = d.mbx m := rfl
@[simp] theorem setShape_tag (v : Shape) : (d.setShape n v).tag m = d.tag m := rfl
@[simp] theorem setShape_chan (v : Shape) : (d.setShape n v).chan m = d.chan m := rfl
@[simp] theorem setShape_die (v : Shape) : (d.setShape n v).die m = d.die m := rfl
@[simp] theorem setShape_pr (v : Shape) : (d.setShape n v).pr m = d.pr m := rfl
@[simp] theorem setShape_obj (v : Shape) : (d.setShape n v).obj m = d.obj m := rfl
@[simp] theorem setShape_ctx (v : Shape) : (d.setShape n v).ctx m = d.ctx m := rfl
@[simp] theorem setShape_stream (v : Shape) : (d.setShape n v).stream m = d.stream m := rfl
@[simp] theorem setShape_port (v : Shape) : (d.setShape n v).port m = d.port m := rfl
@[simp] theorem setShape_mic (v : Shape) : (d.setShape n v).mic m = d.mic m := rfl
@[simp] theorem setShape_chain (v : Shape) : (d.setShape n v).chain m = d.chain m := rfl
@[simp] theorem setShape_sys (v : Shape) : (d.setShape n v).sys = d.sys := rfl
@[simp] theorem setShape_tb (v : Shape) : (d.setShape n v).tb = d.tb := rfl
@[simp] theorem setShape_doms (v : Shape) : (d.setShape n v).doms = d.doms := rfl
@[simp] theorem setShape_paths (v : Shape) : (d.setShape n v).paths = d.paths := rfl
@[simp] theorem setShape_fns (v : Shape) : (d.setShape n v).fns = d.fns := rfl
@[simp] theorem setShape_trn (v : Shape) : (d.setShape n v).trn = d.trn := rfl
@[simp] theorem setShape_link (v : Shape) : (d.setShape n v).link = d.link := rfl
@[simp] theorem setShape_rings (v : Shape) : (d.setShape n v).rings = d.rings := rfl
@[simp] theorem setShape_mbxs (v : Shape) : (d.setShape n v).mbxs = d.mbxs := rfl
@[simp] theorem setShape_tags (v : Shape) : (d.setShape n v).tags = d.tags := rfl
@[simp] theorem setShape_accepts (v : Shape) : (d.setShape n v).accepts = d.accepts := rfl
@[simp] theorem setShape_dones (v : Shape) : (d.setShape n v).dones = d.dones := rfl
@[simp] theorem setShape_cmdLast (v : Shape) : (d.setShape n v).cmdLast = d.cmdLast := rfl
@[simp] theorem setShape_fetched (v : Shape) : (d.setShape n v).fetched = d.fetched := rfl
@[simp] theorem setShape_tless (v : Shape) : (d.setShape n v).tless = d.tless := rfl
@[simp] theorem setShape_nvm (v : Shape) : (d.setShape n v).nvm = d.nvm := rfl
@[simp] theorem setShape_mdt (v : Shape) : (d.setShape n v).mdt = d.mdt := rfl
@[simp] theorem setShape_fz (v : Shape) : (d.setShape n v).fz = d.fz := rfl
@[simp] theorem setShape_tw (v : Shape) : (d.setShape n v).tw = d.tw := rfl
@[simp] theorem setShape_emg (v : Shape) : (d.setShape n v).emg = d.emg := rfl
@[simp] theorem setShape_sbe (v : Shape) : (d.setShape n v).sbe = d.sbe := rfl
@[simp] theorem setShape_faults (v : Shape) : (d.setShape n v).faults = d.faults := rfl
@[simp] theorem setShape_nonce (v : Shape) : (d.setShape n v).nonce = d.nonce := rfl
@[simp] theorem setShape_restartReq (v : Shape) : (d.setShape n v).restartReq = d.restartReq := rfl
@[simp] theorem setShape_restartTag (v : Shape) : (d.setShape n v).restartTag = d.restartTag := rfl
@[simp] theorem setShape_out (v : Shape) : (d.setShape n v).out = d.out := rfl
@[simp] theorem setShape_lastRead (v : Shape) : (d.setShape n v).lastRead = d.lastRead := rfl
@[simp] theorem setShape_mirror (v : Shape) : (d.setShape n v).mirror = d.mirror := rfl
@[simp] theorem setShape_mirSeq (v : Shape) : (d.setShape n v).mirSeq = d.mirSeq := rfl
@[simp] theorem setShape_mirSec (v : Shape) : (d.setShape n v).mirSec = d.mirSec := rfl
@[simp] theorem setShape_exports (v : Shape) : (d.setShape n v).exports = d.exports := rfl
@[simp] theorem setShape_draw (v : Shape) : (d.setShape n v).draw = d.draw := rfl
@[simp] theorem setShape_chans (v : Shape) : (d.setShape n v).chans = d.chans := rfl
@[simp] theorem setShape_dies (v : Shape) : (d.setShape n v).dies = d.dies := rfl
@[simp] theorem setShape_prs (v : Shape) : (d.setShape n v).prs = d.prs := rfl
@[simp] theorem setShape_objs (v : Shape) : (d.setShape n v).objs = d.objs := rfl
@[simp] theorem setShape_ctxs (v : Shape) : (d.setShape n v).ctxs = d.ctxs := rfl
@[simp] theorem setShape_geo (v : Shape) : (d.setShape n v).geo = d.geo := rfl
@[simp] theorem setShape_rend (v : Shape) : (d.setShape n v).rend = d.rend := rfl
@[simp] theorem setShape_streams (v : Shape) : (d.setShape n v).streams = d.streams := rfl
@[simp] theorem setShape_ports (v : Shape) : (d.setShape n v).ports = d.ports := rfl
@[simp] theorem setShape_mics (v : Shape) : (d.setShape n v).mics = d.mics := rfl
@[simp] theorem setShape_pdm (v : Shape) : (d.setShape n v).pdm = d.pdm := rfl
@[simp] theorem setShape_chains (v : Shape) : (d.setShape n v).chains = d.chains := rfl
@[simp] theorem setShape_period (v : Shape) : (d.setShape n v).period = d.period := rfl
@[simp] theorem setShape_railBudget (v : Shape) : (d.setShape n v).railBudget = d.railBudget := rfl
@[simp] theorem setShape_acou (v : Shape) : (d.setShape n v).acou = d.acou := rfl

/-! ### After `setStream` -/

@[simp] theorem setStream_stream (v : Stream) : (d.setStream n v).stream n = v := Tab.get_set_same ..
theorem setStream_stream_other (v : Stream) (h : m ≠ n) : (d.setStream n v).stream m = d.stream m := Tab.get_set_other _ _ _ h
@[simp] theorem setStream_dom (v : Stream) : (d.setStream n v).dom m = d.dom m := rfl
@[simp] theorem setStream_path (v : Stream) : (d.setStream n v).path m = d.path m := rfl
@[simp] theorem setStream_fn (v : Stream) : (d.setStream n v).fn m = d.fn m := rfl
@[simp] theorem setStream_ring (v : Stream) : (d.setStream n v).ring m = d.ring m := rfl
@[simp] theorem setStream_mbx (v : Stream) : (d.setStream n v).mbx m = d.mbx m := rfl
@[simp] theorem setStream_tag (v : Stream) : (d.setStream n v).tag m = d.tag m := rfl
@[simp] theorem setStream_chan (v : Stream) : (d.setStream n v).chan m = d.chan m := rfl
@[simp] theorem setStream_die (v : Stream) : (d.setStream n v).die m = d.die m := rfl
@[simp] theorem setStream_pr (v : Stream) : (d.setStream n v).pr m = d.pr m := rfl
@[simp] theorem setStream_obj (v : Stream) : (d.setStream n v).obj m = d.obj m := rfl
@[simp] theorem setStream_ctx (v : Stream) : (d.setStream n v).ctx m = d.ctx m := rfl
@[simp] theorem setStream_shape (v : Stream) : (d.setStream n v).shape m = d.shape m := rfl
@[simp] theorem setStream_port (v : Stream) : (d.setStream n v).port m = d.port m := rfl
@[simp] theorem setStream_mic (v : Stream) : (d.setStream n v).mic m = d.mic m := rfl
@[simp] theorem setStream_chain (v : Stream) : (d.setStream n v).chain m = d.chain m := rfl
@[simp] theorem setStream_sys (v : Stream) : (d.setStream n v).sys = d.sys := rfl
@[simp] theorem setStream_tb (v : Stream) : (d.setStream n v).tb = d.tb := rfl
@[simp] theorem setStream_doms (v : Stream) : (d.setStream n v).doms = d.doms := rfl
@[simp] theorem setStream_paths (v : Stream) : (d.setStream n v).paths = d.paths := rfl
@[simp] theorem setStream_fns (v : Stream) : (d.setStream n v).fns = d.fns := rfl
@[simp] theorem setStream_trn (v : Stream) : (d.setStream n v).trn = d.trn := rfl
@[simp] theorem setStream_link (v : Stream) : (d.setStream n v).link = d.link := rfl
@[simp] theorem setStream_rings (v : Stream) : (d.setStream n v).rings = d.rings := rfl
@[simp] theorem setStream_mbxs (v : Stream) : (d.setStream n v).mbxs = d.mbxs := rfl
@[simp] theorem setStream_tags (v : Stream) : (d.setStream n v).tags = d.tags := rfl
@[simp] theorem setStream_accepts (v : Stream) : (d.setStream n v).accepts = d.accepts := rfl
@[simp] theorem setStream_dones (v : Stream) : (d.setStream n v).dones = d.dones := rfl
@[simp] theorem setStream_cmdLast (v : Stream) : (d.setStream n v).cmdLast = d.cmdLast := rfl
@[simp] theorem setStream_fetched (v : Stream) : (d.setStream n v).fetched = d.fetched := rfl
@[simp] theorem setStream_tless (v : Stream) : (d.setStream n v).tless = d.tless := rfl
@[simp] theorem setStream_nvm (v : Stream) : (d.setStream n v).nvm = d.nvm := rfl
@[simp] theorem setStream_mdt (v : Stream) : (d.setStream n v).mdt = d.mdt := rfl
@[simp] theorem setStream_fz (v : Stream) : (d.setStream n v).fz = d.fz := rfl
@[simp] theorem setStream_tw (v : Stream) : (d.setStream n v).tw = d.tw := rfl
@[simp] theorem setStream_emg (v : Stream) : (d.setStream n v).emg = d.emg := rfl
@[simp] theorem setStream_sbe (v : Stream) : (d.setStream n v).sbe = d.sbe := rfl
@[simp] theorem setStream_faults (v : Stream) : (d.setStream n v).faults = d.faults := rfl
@[simp] theorem setStream_nonce (v : Stream) : (d.setStream n v).nonce = d.nonce := rfl
@[simp] theorem setStream_restartReq (v : Stream) : (d.setStream n v).restartReq = d.restartReq := rfl
@[simp] theorem setStream_restartTag (v : Stream) : (d.setStream n v).restartTag = d.restartTag := rfl
@[simp] theorem setStream_out (v : Stream) : (d.setStream n v).out = d.out := rfl
@[simp] theorem setStream_lastRead (v : Stream) : (d.setStream n v).lastRead = d.lastRead := rfl
@[simp] theorem setStream_mirror (v : Stream) : (d.setStream n v).mirror = d.mirror := rfl
@[simp] theorem setStream_mirSeq (v : Stream) : (d.setStream n v).mirSeq = d.mirSeq := rfl
@[simp] theorem setStream_mirSec (v : Stream) : (d.setStream n v).mirSec = d.mirSec := rfl
@[simp] theorem setStream_exports (v : Stream) : (d.setStream n v).exports = d.exports := rfl
@[simp] theorem setStream_draw (v : Stream) : (d.setStream n v).draw = d.draw := rfl
@[simp] theorem setStream_chans (v : Stream) : (d.setStream n v).chans = d.chans := rfl
@[simp] theorem setStream_dies (v : Stream) : (d.setStream n v).dies = d.dies := rfl
@[simp] theorem setStream_prs (v : Stream) : (d.setStream n v).prs = d.prs := rfl
@[simp] theorem setStream_objs (v : Stream) : (d.setStream n v).objs = d.objs := rfl
@[simp] theorem setStream_ctxs (v : Stream) : (d.setStream n v).ctxs = d.ctxs := rfl
@[simp] theorem setStream_shapes (v : Stream) : (d.setStream n v).shapes = d.shapes := rfl
@[simp] theorem setStream_geo (v : Stream) : (d.setStream n v).geo = d.geo := rfl
@[simp] theorem setStream_rend (v : Stream) : (d.setStream n v).rend = d.rend := rfl
@[simp] theorem setStream_ports (v : Stream) : (d.setStream n v).ports = d.ports := rfl
@[simp] theorem setStream_mics (v : Stream) : (d.setStream n v).mics = d.mics := rfl
@[simp] theorem setStream_pdm (v : Stream) : (d.setStream n v).pdm = d.pdm := rfl
@[simp] theorem setStream_chains (v : Stream) : (d.setStream n v).chains = d.chains := rfl
@[simp] theorem setStream_period (v : Stream) : (d.setStream n v).period = d.period := rfl
@[simp] theorem setStream_railBudget (v : Stream) : (d.setStream n v).railBudget = d.railBudget := rfl
@[simp] theorem setStream_acou (v : Stream) : (d.setStream n v).acou = d.acou := rfl

/-! ### After `setPort` -/

@[simp] theorem setPort_port (v : TPort) : (d.setPort n v).port n = v := Tab.get_set_same ..
theorem setPort_port_other (v : TPort) (h : m ≠ n) : (d.setPort n v).port m = d.port m := Tab.get_set_other _ _ _ h
@[simp] theorem setPort_dom (v : TPort) : (d.setPort n v).dom m = d.dom m := rfl
@[simp] theorem setPort_path (v : TPort) : (d.setPort n v).path m = d.path m := rfl
@[simp] theorem setPort_fn (v : TPort) : (d.setPort n v).fn m = d.fn m := rfl
@[simp] theorem setPort_ring (v : TPort) : (d.setPort n v).ring m = d.ring m := rfl
@[simp] theorem setPort_mbx (v : TPort) : (d.setPort n v).mbx m = d.mbx m := rfl
@[simp] theorem setPort_tag (v : TPort) : (d.setPort n v).tag m = d.tag m := rfl
@[simp] theorem setPort_chan (v : TPort) : (d.setPort n v).chan m = d.chan m := rfl
@[simp] theorem setPort_die (v : TPort) : (d.setPort n v).die m = d.die m := rfl
@[simp] theorem setPort_pr (v : TPort) : (d.setPort n v).pr m = d.pr m := rfl
@[simp] theorem setPort_obj (v : TPort) : (d.setPort n v).obj m = d.obj m := rfl
@[simp] theorem setPort_ctx (v : TPort) : (d.setPort n v).ctx m = d.ctx m := rfl
@[simp] theorem setPort_shape (v : TPort) : (d.setPort n v).shape m = d.shape m := rfl
@[simp] theorem setPort_stream (v : TPort) : (d.setPort n v).stream m = d.stream m := rfl
@[simp] theorem setPort_mic (v : TPort) : (d.setPort n v).mic m = d.mic m := rfl
@[simp] theorem setPort_chain (v : TPort) : (d.setPort n v).chain m = d.chain m := rfl
@[simp] theorem setPort_sys (v : TPort) : (d.setPort n v).sys = d.sys := rfl
@[simp] theorem setPort_tb (v : TPort) : (d.setPort n v).tb = d.tb := rfl
@[simp] theorem setPort_doms (v : TPort) : (d.setPort n v).doms = d.doms := rfl
@[simp] theorem setPort_paths (v : TPort) : (d.setPort n v).paths = d.paths := rfl
@[simp] theorem setPort_fns (v : TPort) : (d.setPort n v).fns = d.fns := rfl
@[simp] theorem setPort_trn (v : TPort) : (d.setPort n v).trn = d.trn := rfl
@[simp] theorem setPort_link (v : TPort) : (d.setPort n v).link = d.link := rfl
@[simp] theorem setPort_rings (v : TPort) : (d.setPort n v).rings = d.rings := rfl
@[simp] theorem setPort_mbxs (v : TPort) : (d.setPort n v).mbxs = d.mbxs := rfl
@[simp] theorem setPort_tags (v : TPort) : (d.setPort n v).tags = d.tags := rfl
@[simp] theorem setPort_accepts (v : TPort) : (d.setPort n v).accepts = d.accepts := rfl
@[simp] theorem setPort_dones (v : TPort) : (d.setPort n v).dones = d.dones := rfl
@[simp] theorem setPort_cmdLast (v : TPort) : (d.setPort n v).cmdLast = d.cmdLast := rfl
@[simp] theorem setPort_fetched (v : TPort) : (d.setPort n v).fetched = d.fetched := rfl
@[simp] theorem setPort_tless (v : TPort) : (d.setPort n v).tless = d.tless := rfl
@[simp] theorem setPort_nvm (v : TPort) : (d.setPort n v).nvm = d.nvm := rfl
@[simp] theorem setPort_mdt (v : TPort) : (d.setPort n v).mdt = d.mdt := rfl
@[simp] theorem setPort_fz (v : TPort) : (d.setPort n v).fz = d.fz := rfl
@[simp] theorem setPort_tw (v : TPort) : (d.setPort n v).tw = d.tw := rfl
@[simp] theorem setPort_emg (v : TPort) : (d.setPort n v).emg = d.emg := rfl
@[simp] theorem setPort_sbe (v : TPort) : (d.setPort n v).sbe = d.sbe := rfl
@[simp] theorem setPort_faults (v : TPort) : (d.setPort n v).faults = d.faults := rfl
@[simp] theorem setPort_nonce (v : TPort) : (d.setPort n v).nonce = d.nonce := rfl
@[simp] theorem setPort_restartReq (v : TPort) : (d.setPort n v).restartReq = d.restartReq := rfl
@[simp] theorem setPort_restartTag (v : TPort) : (d.setPort n v).restartTag = d.restartTag := rfl
@[simp] theorem setPort_out (v : TPort) : (d.setPort n v).out = d.out := rfl
@[simp] theorem setPort_lastRead (v : TPort) : (d.setPort n v).lastRead = d.lastRead := rfl
@[simp] theorem setPort_mirror (v : TPort) : (d.setPort n v).mirror = d.mirror := rfl
@[simp] theorem setPort_mirSeq (v : TPort) : (d.setPort n v).mirSeq = d.mirSeq := rfl
@[simp] theorem setPort_mirSec (v : TPort) : (d.setPort n v).mirSec = d.mirSec := rfl
@[simp] theorem setPort_exports (v : TPort) : (d.setPort n v).exports = d.exports := rfl
@[simp] theorem setPort_draw (v : TPort) : (d.setPort n v).draw = d.draw := rfl
@[simp] theorem setPort_chans (v : TPort) : (d.setPort n v).chans = d.chans := rfl
@[simp] theorem setPort_dies (v : TPort) : (d.setPort n v).dies = d.dies := rfl
@[simp] theorem setPort_prs (v : TPort) : (d.setPort n v).prs = d.prs := rfl
@[simp] theorem setPort_objs (v : TPort) : (d.setPort n v).objs = d.objs := rfl
@[simp] theorem setPort_ctxs (v : TPort) : (d.setPort n v).ctxs = d.ctxs := rfl
@[simp] theorem setPort_shapes (v : TPort) : (d.setPort n v).shapes = d.shapes := rfl
@[simp] theorem setPort_geo (v : TPort) : (d.setPort n v).geo = d.geo := rfl
@[simp] theorem setPort_rend (v : TPort) : (d.setPort n v).rend = d.rend := rfl
@[simp] theorem setPort_streams (v : TPort) : (d.setPort n v).streams = d.streams := rfl
@[simp] theorem setPort_mics (v : TPort) : (d.setPort n v).mics = d.mics := rfl
@[simp] theorem setPort_pdm (v : TPort) : (d.setPort n v).pdm = d.pdm := rfl
@[simp] theorem setPort_chains (v : TPort) : (d.setPort n v).chains = d.chains := rfl
@[simp] theorem setPort_period (v : TPort) : (d.setPort n v).period = d.period := rfl
@[simp] theorem setPort_railBudget (v : TPort) : (d.setPort n v).railBudget = d.railBudget := rfl
@[simp] theorem setPort_acou (v : TPort) : (d.setPort n v).acou = d.acou := rfl

/-! ### After `setMic` -/

@[simp] theorem setMic_mic (v : Mic) : (d.setMic n v).mic n = v := Tab.get_set_same ..
theorem setMic_mic_other (v : Mic) (h : m ≠ n) : (d.setMic n v).mic m = d.mic m := Tab.get_set_other _ _ _ h
@[simp] theorem setMic_dom (v : Mic) : (d.setMic n v).dom m = d.dom m := rfl
@[simp] theorem setMic_path (v : Mic) : (d.setMic n v).path m = d.path m := rfl
@[simp] theorem setMic_fn (v : Mic) : (d.setMic n v).fn m = d.fn m := rfl
@[simp] theorem setMic_ring (v : Mic) : (d.setMic n v).ring m = d.ring m := rfl
@[simp] theorem setMic_mbx (v : Mic) : (d.setMic n v).mbx m = d.mbx m := rfl
@[simp] theorem setMic_tag (v : Mic) : (d.setMic n v).tag m = d.tag m := rfl
@[simp] theorem setMic_chan (v : Mic) : (d.setMic n v).chan m = d.chan m := rfl
@[simp] theorem setMic_die (v : Mic) : (d.setMic n v).die m = d.die m := rfl
@[simp] theorem setMic_pr (v : Mic) : (d.setMic n v).pr m = d.pr m := rfl
@[simp] theorem setMic_obj (v : Mic) : (d.setMic n v).obj m = d.obj m := rfl
@[simp] theorem setMic_ctx (v : Mic) : (d.setMic n v).ctx m = d.ctx m := rfl
@[simp] theorem setMic_shape (v : Mic) : (d.setMic n v).shape m = d.shape m := rfl
@[simp] theorem setMic_stream (v : Mic) : (d.setMic n v).stream m = d.stream m := rfl
@[simp] theorem setMic_port (v : Mic) : (d.setMic n v).port m = d.port m := rfl
@[simp] theorem setMic_chain (v : Mic) : (d.setMic n v).chain m = d.chain m := rfl
@[simp] theorem setMic_sys (v : Mic) : (d.setMic n v).sys = d.sys := rfl
@[simp] theorem setMic_tb (v : Mic) : (d.setMic n v).tb = d.tb := rfl
@[simp] theorem setMic_doms (v : Mic) : (d.setMic n v).doms = d.doms := rfl
@[simp] theorem setMic_paths (v : Mic) : (d.setMic n v).paths = d.paths := rfl
@[simp] theorem setMic_fns (v : Mic) : (d.setMic n v).fns = d.fns := rfl
@[simp] theorem setMic_trn (v : Mic) : (d.setMic n v).trn = d.trn := rfl
@[simp] theorem setMic_link (v : Mic) : (d.setMic n v).link = d.link := rfl
@[simp] theorem setMic_rings (v : Mic) : (d.setMic n v).rings = d.rings := rfl
@[simp] theorem setMic_mbxs (v : Mic) : (d.setMic n v).mbxs = d.mbxs := rfl
@[simp] theorem setMic_tags (v : Mic) : (d.setMic n v).tags = d.tags := rfl
@[simp] theorem setMic_accepts (v : Mic) : (d.setMic n v).accepts = d.accepts := rfl
@[simp] theorem setMic_dones (v : Mic) : (d.setMic n v).dones = d.dones := rfl
@[simp] theorem setMic_cmdLast (v : Mic) : (d.setMic n v).cmdLast = d.cmdLast := rfl
@[simp] theorem setMic_fetched (v : Mic) : (d.setMic n v).fetched = d.fetched := rfl
@[simp] theorem setMic_tless (v : Mic) : (d.setMic n v).tless = d.tless := rfl
@[simp] theorem setMic_nvm (v : Mic) : (d.setMic n v).nvm = d.nvm := rfl
@[simp] theorem setMic_mdt (v : Mic) : (d.setMic n v).mdt = d.mdt := rfl
@[simp] theorem setMic_fz (v : Mic) : (d.setMic n v).fz = d.fz := rfl
@[simp] theorem setMic_tw (v : Mic) : (d.setMic n v).tw = d.tw := rfl
@[simp] theorem setMic_emg (v : Mic) : (d.setMic n v).emg = d.emg := rfl
@[simp] theorem setMic_sbe (v : Mic) : (d.setMic n v).sbe = d.sbe := rfl
@[simp] theorem setMic_faults (v : Mic) : (d.setMic n v).faults = d.faults := rfl
@[simp] theorem setMic_nonce (v : Mic) : (d.setMic n v).nonce = d.nonce := rfl
@[simp] theorem setMic_restartReq (v : Mic) : (d.setMic n v).restartReq = d.restartReq := rfl
@[simp] theorem setMic_restartTag (v : Mic) : (d.setMic n v).restartTag = d.restartTag := rfl
@[simp] theorem setMic_out (v : Mic) : (d.setMic n v).out = d.out := rfl
@[simp] theorem setMic_lastRead (v : Mic) : (d.setMic n v).lastRead = d.lastRead := rfl
@[simp] theorem setMic_mirror (v : Mic) : (d.setMic n v).mirror = d.mirror := rfl
@[simp] theorem setMic_mirSeq (v : Mic) : (d.setMic n v).mirSeq = d.mirSeq := rfl
@[simp] theorem setMic_mirSec (v : Mic) : (d.setMic n v).mirSec = d.mirSec := rfl
@[simp] theorem setMic_exports (v : Mic) : (d.setMic n v).exports = d.exports := rfl
@[simp] theorem setMic_draw (v : Mic) : (d.setMic n v).draw = d.draw := rfl
@[simp] theorem setMic_chans (v : Mic) : (d.setMic n v).chans = d.chans := rfl
@[simp] theorem setMic_dies (v : Mic) : (d.setMic n v).dies = d.dies := rfl
@[simp] theorem setMic_prs (v : Mic) : (d.setMic n v).prs = d.prs := rfl
@[simp] theorem setMic_objs (v : Mic) : (d.setMic n v).objs = d.objs := rfl
@[simp] theorem setMic_ctxs (v : Mic) : (d.setMic n v).ctxs = d.ctxs := rfl
@[simp] theorem setMic_shapes (v : Mic) : (d.setMic n v).shapes = d.shapes := rfl
@[simp] theorem setMic_geo (v : Mic) : (d.setMic n v).geo = d.geo := rfl
@[simp] theorem setMic_rend (v : Mic) : (d.setMic n v).rend = d.rend := rfl
@[simp] theorem setMic_streams (v : Mic) : (d.setMic n v).streams = d.streams := rfl
@[simp] theorem setMic_ports (v : Mic) : (d.setMic n v).ports = d.ports := rfl
@[simp] theorem setMic_pdm (v : Mic) : (d.setMic n v).pdm = d.pdm := rfl
@[simp] theorem setMic_chains (v : Mic) : (d.setMic n v).chains = d.chains := rfl
@[simp] theorem setMic_period (v : Mic) : (d.setMic n v).period = d.period := rfl
@[simp] theorem setMic_railBudget (v : Mic) : (d.setMic n v).railBudget = d.railBudget := rfl
@[simp] theorem setMic_acou (v : Mic) : (d.setMic n v).acou = d.acou := rfl

/-! ### After `setChain` -/

@[simp] theorem setChain_chain (v : Chain) : (d.setChain n v).chain n = v := Tab.get_set_same ..
theorem setChain_chain_other (v : Chain) (h : m ≠ n) : (d.setChain n v).chain m = d.chain m := Tab.get_set_other _ _ _ h
@[simp] theorem setChain_dom (v : Chain) : (d.setChain n v).dom m = d.dom m := rfl
@[simp] theorem setChain_path (v : Chain) : (d.setChain n v).path m = d.path m := rfl
@[simp] theorem setChain_fn (v : Chain) : (d.setChain n v).fn m = d.fn m := rfl
@[simp] theorem setChain_ring (v : Chain) : (d.setChain n v).ring m = d.ring m := rfl
@[simp] theorem setChain_mbx (v : Chain) : (d.setChain n v).mbx m = d.mbx m := rfl
@[simp] theorem setChain_tag (v : Chain) : (d.setChain n v).tag m = d.tag m := rfl
@[simp] theorem setChain_chan (v : Chain) : (d.setChain n v).chan m = d.chan m := rfl
@[simp] theorem setChain_die (v : Chain) : (d.setChain n v).die m = d.die m := rfl
@[simp] theorem setChain_pr (v : Chain) : (d.setChain n v).pr m = d.pr m := rfl
@[simp] theorem setChain_obj (v : Chain) : (d.setChain n v).obj m = d.obj m := rfl
@[simp] theorem setChain_ctx (v : Chain) : (d.setChain n v).ctx m = d.ctx m := rfl
@[simp] theorem setChain_shape (v : Chain) : (d.setChain n v).shape m = d.shape m := rfl
@[simp] theorem setChain_stream (v : Chain) : (d.setChain n v).stream m = d.stream m := rfl
@[simp] theorem setChain_port (v : Chain) : (d.setChain n v).port m = d.port m := rfl
@[simp] theorem setChain_mic (v : Chain) : (d.setChain n v).mic m = d.mic m := rfl
@[simp] theorem setChain_sys (v : Chain) : (d.setChain n v).sys = d.sys := rfl
@[simp] theorem setChain_tb (v : Chain) : (d.setChain n v).tb = d.tb := rfl
@[simp] theorem setChain_doms (v : Chain) : (d.setChain n v).doms = d.doms := rfl
@[simp] theorem setChain_paths (v : Chain) : (d.setChain n v).paths = d.paths := rfl
@[simp] theorem setChain_fns (v : Chain) : (d.setChain n v).fns = d.fns := rfl
@[simp] theorem setChain_trn (v : Chain) : (d.setChain n v).trn = d.trn := rfl
@[simp] theorem setChain_link (v : Chain) : (d.setChain n v).link = d.link := rfl
@[simp] theorem setChain_rings (v : Chain) : (d.setChain n v).rings = d.rings := rfl
@[simp] theorem setChain_mbxs (v : Chain) : (d.setChain n v).mbxs = d.mbxs := rfl
@[simp] theorem setChain_tags (v : Chain) : (d.setChain n v).tags = d.tags := rfl
@[simp] theorem setChain_accepts (v : Chain) : (d.setChain n v).accepts = d.accepts := rfl
@[simp] theorem setChain_dones (v : Chain) : (d.setChain n v).dones = d.dones := rfl
@[simp] theorem setChain_cmdLast (v : Chain) : (d.setChain n v).cmdLast = d.cmdLast := rfl
@[simp] theorem setChain_fetched (v : Chain) : (d.setChain n v).fetched = d.fetched := rfl
@[simp] theorem setChain_tless (v : Chain) : (d.setChain n v).tless = d.tless := rfl
@[simp] theorem setChain_nvm (v : Chain) : (d.setChain n v).nvm = d.nvm := rfl
@[simp] theorem setChain_mdt (v : Chain) : (d.setChain n v).mdt = d.mdt := rfl
@[simp] theorem setChain_fz (v : Chain) : (d.setChain n v).fz = d.fz := rfl
@[simp] theorem setChain_tw (v : Chain) : (d.setChain n v).tw = d.tw := rfl
@[simp] theorem setChain_emg (v : Chain) : (d.setChain n v).emg = d.emg := rfl
@[simp] theorem setChain_sbe (v : Chain) : (d.setChain n v).sbe = d.sbe := rfl
@[simp] theorem setChain_faults (v : Chain) : (d.setChain n v).faults = d.faults := rfl
@[simp] theorem setChain_nonce (v : Chain) : (d.setChain n v).nonce = d.nonce := rfl
@[simp] theorem setChain_restartReq (v : Chain) : (d.setChain n v).restartReq = d.restartReq := rfl
@[simp] theorem setChain_restartTag (v : Chain) : (d.setChain n v).restartTag = d.restartTag := rfl
@[simp] theorem setChain_out (v : Chain) : (d.setChain n v).out = d.out := rfl
@[simp] theorem setChain_lastRead (v : Chain) : (d.setChain n v).lastRead = d.lastRead := rfl
@[simp] theorem setChain_mirror (v : Chain) : (d.setChain n v).mirror = d.mirror := rfl
@[simp] theorem setChain_mirSeq (v : Chain) : (d.setChain n v).mirSeq = d.mirSeq := rfl
@[simp] theorem setChain_mirSec (v : Chain) : (d.setChain n v).mirSec = d.mirSec := rfl
@[simp] theorem setChain_exports (v : Chain) : (d.setChain n v).exports = d.exports := rfl
@[simp] theorem setChain_draw (v : Chain) : (d.setChain n v).draw = d.draw := rfl
@[simp] theorem setChain_chans (v : Chain) : (d.setChain n v).chans = d.chans := rfl
@[simp] theorem setChain_dies (v : Chain) : (d.setChain n v).dies = d.dies := rfl
@[simp] theorem setChain_prs (v : Chain) : (d.setChain n v).prs = d.prs := rfl
@[simp] theorem setChain_objs (v : Chain) : (d.setChain n v).objs = d.objs := rfl
@[simp] theorem setChain_ctxs (v : Chain) : (d.setChain n v).ctxs = d.ctxs := rfl
@[simp] theorem setChain_shapes (v : Chain) : (d.setChain n v).shapes = d.shapes := rfl
@[simp] theorem setChain_geo (v : Chain) : (d.setChain n v).geo = d.geo := rfl
@[simp] theorem setChain_rend (v : Chain) : (d.setChain n v).rend = d.rend := rfl
@[simp] theorem setChain_streams (v : Chain) : (d.setChain n v).streams = d.streams := rfl
@[simp] theorem setChain_ports (v : Chain) : (d.setChain n v).ports = d.ports := rfl
@[simp] theorem setChain_mics (v : Chain) : (d.setChain n v).mics = d.mics := rfl
@[simp] theorem setChain_pdm (v : Chain) : (d.setChain n v).pdm = d.pdm := rfl
@[simp] theorem setChain_period (v : Chain) : (d.setChain n v).period = d.period := rfl
@[simp] theorem setChain_railBudget (v : Chain) : (d.setChain n v).railBudget = d.railBudget := rfl
@[simp] theorem setChain_acou (v : Chain) : (d.setChain n v).acou = d.acou := rfl

/-! ### After something leaves the device or a register is read -/

@[simp] theorem emit_dom (o : Out) : (d.emit o).dom m = d.dom m := rfl
@[simp] theorem answer_dom (b : List Nat) : (d.answer b).dom m = d.dom m := rfl
@[simp] theorem emit_path (o : Out) : (d.emit o).path m = d.path m := rfl
@[simp] theorem answer_path (b : List Nat) : (d.answer b).path m = d.path m := rfl
@[simp] theorem emit_fn (o : Out) : (d.emit o).fn m = d.fn m := rfl
@[simp] theorem answer_fn (b : List Nat) : (d.answer b).fn m = d.fn m := rfl
@[simp] theorem emit_ring (o : Out) : (d.emit o).ring m = d.ring m := rfl
@[simp] theorem answer_ring (b : List Nat) : (d.answer b).ring m = d.ring m := rfl
@[simp] theorem emit_mbx (o : Out) : (d.emit o).mbx m = d.mbx m := rfl
@[simp] theorem answer_mbx (b : List Nat) : (d.answer b).mbx m = d.mbx m := rfl
@[simp] theorem emit_tag (o : Out) : (d.emit o).tag m = d.tag m := rfl
@[simp] theorem answer_tag (b : List Nat) : (d.answer b).tag m = d.tag m := rfl
@[simp] theorem emit_chan (o : Out) : (d.emit o).chan m = d.chan m := rfl
@[simp] theorem answer_chan (b : List Nat) : (d.answer b).chan m = d.chan m := rfl
@[simp] theorem emit_die (o : Out) : (d.emit o).die m = d.die m := rfl
@[simp] theorem answer_die (b : List Nat) : (d.answer b).die m = d.die m := rfl
@[simp] theorem emit_pr (o : Out) : (d.emit o).pr m = d.pr m := rfl
@[simp] theorem answer_pr (b : List Nat) : (d.answer b).pr m = d.pr m := rfl
@[simp] theorem emit_obj (o : Out) : (d.emit o).obj m = d.obj m := rfl
@[simp] theorem answer_obj (b : List Nat) : (d.answer b).obj m = d.obj m := rfl
@[simp] theorem emit_ctx (o : Out) : (d.emit o).ctx m = d.ctx m := rfl
@[simp] theorem answer_ctx (b : List Nat) : (d.answer b).ctx m = d.ctx m := rfl
@[simp] theorem emit_shape (o : Out) : (d.emit o).shape m = d.shape m := rfl
@[simp] theorem answer_shape (b : List Nat) : (d.answer b).shape m = d.shape m := rfl
@[simp] theorem emit_stream (o : Out) : (d.emit o).stream m = d.stream m := rfl
@[simp] theorem answer_stream (b : List Nat) : (d.answer b).stream m = d.stream m := rfl
@[simp] theorem emit_port (o : Out) : (d.emit o).port m = d.port m := rfl
@[simp] theorem answer_port (b : List Nat) : (d.answer b).port m = d.port m := rfl
@[simp] theorem emit_mic (o : Out) : (d.emit o).mic m = d.mic m := rfl
@[simp] theorem answer_mic (b : List Nat) : (d.answer b).mic m = d.mic m := rfl
@[simp] theorem emit_chain (o : Out) : (d.emit o).chain m = d.chain m := rfl
@[simp] theorem answer_chain (b : List Nat) : (d.answer b).chain m = d.chain m := rfl
@[simp] theorem emit_sys (o : Out) : (d.emit o).sys = d.sys := rfl
@[simp] theorem answer_sys (b : List Nat) : (d.answer b).sys = d.sys := rfl
@[simp] theorem emit_tb (o : Out) : (d.emit o).tb = d.tb := rfl
@[simp] theorem answer_tb (b : List Nat) : (d.answer b).tb = d.tb := rfl
@[simp] theorem emit_doms (o : Out) : (d.emit o).doms = d.doms := rfl
@[simp] theorem answer_doms (b : List Nat) : (d.answer b).doms = d.doms := rfl
@[simp] theorem emit_paths (o : Out) : (d.emit o).paths = d.paths := rfl
@[simp] theorem answer_paths (b : List Nat) : (d.answer b).paths = d.paths := rfl
@[simp] theorem emit_fns (o : Out) : (d.emit o).fns = d.fns := rfl
@[simp] theorem answer_fns (b : List Nat) : (d.answer b).fns = d.fns := rfl
@[simp] theorem emit_trn (o : Out) : (d.emit o).trn = d.trn := rfl
@[simp] theorem answer_trn (b : List Nat) : (d.answer b).trn = d.trn := rfl
@[simp] theorem answer_link (b : List Nat) : (d.answer b).link = d.link := rfl
@[simp] theorem emit_rings (o : Out) : (d.emit o).rings = d.rings := rfl
@[simp] theorem answer_rings (b : List Nat) : (d.answer b).rings = d.rings := rfl
@[simp] theorem emit_mbxs (o : Out) : (d.emit o).mbxs = d.mbxs := rfl
@[simp] theorem answer_mbxs (b : List Nat) : (d.answer b).mbxs = d.mbxs := rfl
@[simp] theorem emit_tags (o : Out) : (d.emit o).tags = d.tags := rfl
@[simp] theorem answer_tags (b : List Nat) : (d.answer b).tags = d.tags := rfl
@[simp] theorem emit_accepts (o : Out) : (d.emit o).accepts = d.accepts := rfl
@[simp] theorem answer_accepts (b : List Nat) : (d.answer b).accepts = d.accepts := rfl
@[simp] theorem emit_dones (o : Out) : (d.emit o).dones = d.dones := rfl
@[simp] theorem answer_dones (b : List Nat) : (d.answer b).dones = d.dones := rfl
@[simp] theorem emit_cmdLast (o : Out) : (d.emit o).cmdLast = d.cmdLast := rfl
@[simp] theorem answer_cmdLast (b : List Nat) : (d.answer b).cmdLast = d.cmdLast := rfl
@[simp] theorem emit_fetched (o : Out) : (d.emit o).fetched = d.fetched := rfl
@[simp] theorem answer_fetched (b : List Nat) : (d.answer b).fetched = d.fetched := rfl
@[simp] theorem emit_tless (o : Out) : (d.emit o).tless = d.tless := rfl
@[simp] theorem answer_tless (b : List Nat) : (d.answer b).tless = d.tless := rfl
@[simp] theorem emit_nvm (o : Out) : (d.emit o).nvm = d.nvm := rfl
@[simp] theorem answer_nvm (b : List Nat) : (d.answer b).nvm = d.nvm := rfl
@[simp] theorem emit_mdt (o : Out) : (d.emit o).mdt = d.mdt := rfl
@[simp] theorem answer_mdt (b : List Nat) : (d.answer b).mdt = d.mdt := rfl
@[simp] theorem emit_fz (o : Out) : (d.emit o).fz = d.fz := rfl
@[simp] theorem answer_fz (b : List Nat) : (d.answer b).fz = d.fz := rfl
@[simp] theorem emit_tw (o : Out) : (d.emit o).tw = d.tw := rfl
@[simp] theorem answer_tw (b : List Nat) : (d.answer b).tw = d.tw := rfl
@[simp] theorem emit_emg (o : Out) : (d.emit o).emg = d.emg := rfl
@[simp] theorem answer_emg (b : List Nat) : (d.answer b).emg = d.emg := rfl
@[simp] theorem emit_sbe (o : Out) : (d.emit o).sbe = d.sbe := rfl
@[simp] theorem answer_sbe (b : List Nat) : (d.answer b).sbe = d.sbe := rfl
@[simp] theorem emit_faults (o : Out) : (d.emit o).faults = d.faults := rfl
@[simp] theorem answer_faults (b : List Nat) : (d.answer b).faults = d.faults := rfl
@[simp] theorem emit_nonce (o : Out) : (d.emit o).nonce = d.nonce := rfl
@[simp] theorem answer_nonce (b : List Nat) : (d.answer b).nonce = d.nonce := rfl
@[simp] theorem emit_restartReq (o : Out) : (d.emit o).restartReq = d.restartReq := rfl
@[simp] theorem answer_restartReq (b : List Nat) : (d.answer b).restartReq = d.restartReq := rfl
@[simp] theorem emit_restartTag (o : Out) : (d.emit o).restartTag = d.restartTag := rfl
@[simp] theorem answer_restartTag (b : List Nat) : (d.answer b).restartTag = d.restartTag := rfl
@[simp] theorem answer_out (b : List Nat) : (d.answer b).out = d.out := rfl
@[simp] theorem emit_lastRead (o : Out) : (d.emit o).lastRead = d.lastRead := rfl
@[simp] theorem emit_mirror (o : Out) : (d.emit o).mirror = d.mirror := rfl
@[simp] theorem answer_mirror (b : List Nat) : (d.answer b).mirror = d.mirror := rfl
@[simp] theorem emit_mirSeq (o : Out) : (d.emit o).mirSeq = d.mirSeq := rfl
@[simp] theorem answer_mirSeq (b : List Nat) : (d.answer b).mirSeq = d.mirSeq := rfl
@[simp] theorem emit_mirSec (o : Out) : (d.emit o).mirSec = d.mirSec := rfl
@[simp] theorem answer_mirSec (b : List Nat) : (d.answer b).mirSec = d.mirSec := rfl
@[simp] theorem emit_exports (o : Out) : (d.emit o).exports = d.exports := rfl
@[simp] theorem answer_exports (b : List Nat) : (d.answer b).exports = d.exports := rfl
@[simp] theorem emit_draw (o : Out) : (d.emit o).draw = d.draw := rfl
@[simp] theorem answer_draw (b : List Nat) : (d.answer b).draw = d.draw := rfl
@[simp] theorem emit_chans (o : Out) : (d.emit o).chans = d.chans := rfl
@[simp] theorem answer_chans (b : List Nat) : (d.answer b).chans = d.chans := rfl
@[simp] theorem emit_dies (o : Out) : (d.emit o).dies = d.dies := rfl
@[simp] theorem answer_dies (b : List Nat) : (d.answer b).dies = d.dies := rfl
@[simp] theorem emit_prs (o : Out) : (d.emit o).prs = d.prs := rfl
@[simp] theorem answer_prs (b : List Nat) : (d.answer b).prs = d.prs := rfl
@[simp] theorem emit_objs (o : Out) : (d.emit o).objs = d.objs := rfl
@[simp] theorem answer_objs (b : List Nat) : (d.answer b).objs = d.objs := rfl
@[simp] theorem emit_ctxs (o : Out) : (d.emit o).ctxs = d.ctxs := rfl
@[simp] theorem answer_ctxs (b : List Nat) : (d.answer b).ctxs = d.ctxs := rfl
@[simp] theorem emit_shapes (o : Out) : (d.emit o).shapes = d.shapes := rfl
@[simp] theorem answer_shapes (b : List Nat) : (d.answer b).shapes = d.shapes := rfl
@[simp] theorem emit_geo (o : Out) : (d.emit o).geo = d.geo := rfl
@[simp] theorem answer_geo (b : List Nat) : (d.answer b).geo = d.geo := rfl
@[simp] theorem emit_rend (o : Out) : (d.emit o).rend = d.rend := rfl
@[simp] theorem answer_rend (b : List Nat) : (d.answer b).rend = d.rend := rfl
@[simp] theorem emit_streams (o : Out) : (d.emit o).streams = d.streams := rfl
@[simp] theorem answer_streams (b : List Nat) : (d.answer b).streams = d.streams := rfl
@[simp] theorem emit_ports (o : Out) : (d.emit o).ports = d.ports := rfl
@[simp] theorem answer_ports (b : List Nat) : (d.answer b).ports = d.ports := rfl
@[simp] theorem emit_mics (o : Out) : (d.emit o).mics = d.mics := rfl
@[simp] theorem answer_mics (b : List Nat) : (d.answer b).mics = d.mics := rfl
@[simp] theorem emit_pdm (o : Out) : (d.emit o).pdm = d.pdm := rfl
@[simp] theorem answer_pdm (b : List Nat) : (d.answer b).pdm = d.pdm := rfl
@[simp] theorem emit_chains (o : Out) : (d.emit o).chains = d.chains := rfl
@[simp] theorem answer_chains (b : List Nat) : (d.answer b).chains = d.chains := rfl
@[simp] theorem emit_period (o : Out) : (d.emit o).period = d.period := rfl
@[simp] theorem answer_period (b : List Nat) : (d.answer b).period = d.period := rfl
@[simp] theorem emit_railBudget (o : Out) : (d.emit o).railBudget = d.railBudget := rfl
@[simp] theorem answer_railBudget (b : List Nat) : (d.answer b).railBudget = d.railBudget := rfl
@[simp] theorem emit_acou (o : Out) : (d.emit o).acou = d.acou := rfl
@[simp] theorem answer_acou (b : List Nat) : (d.answer b).acou = d.acou := rfl
@[simp] theorem answer_lastRead (b : List Nat) : (d.answer b).lastRead = b := rfl

end Fields

/-! ### After a step on the device alone -/

section Outer
variable (s : State) (f : Dev → Dev)

@[simp] theorem onDev_pending : (s.onDev f).pending = s.pending := rfl
@[simp] theorem onDev_locks : (s.onDev f).locks = s.locks := rfl
@[simp] theorem onDev_win : (s.onDev f).win = s.win := rfl
@[simp] theorem onDev_dev : (s.onDev f).dev = f s.dev := rfl
@[simp] theorem onLive_pending : (s.onLive f).pending = s.pending := by unfold State.onLive; split <;> rfl
@[simp] theorem onLive_locks : (s.onLive f).locks = s.locks := by unfold State.onLive; split <;> rfl
@[simp] theorem onLive_win : (s.onLive f).win = s.win := by unfold State.onLive; split <;> rfl

/-- While the engines run, the step acts. -/
theorem onLive_live (h : s.dev.live = true) : s.onLive f = s.onDev f := by simp [State.onLive, h]
/-- While they stand, nothing changes. -/
theorem onLive_stopped (h : s.dev.live = false) : s.onLive f = s := by simp [State.onLive, h]

end Outer

end Sys2Proof.Machine
end

