-- ==== Sys2Proof/Laws/Command.lean ====
section
/-! SUPPORT. What a Ramcen command does from its acceptance to its effect: one lemma for a command that passes its checks,
one for a command that acts at once, one for the end of a tag. -/

namespace Sys2Proof.Machine

/-! ### Tags -/

/-- An entry of a table after a replacement is the new one or an old one. -/
theorem Tab.mem_set {α : Type} {t : Tab α} {i : Nat} {v : α} {e : Nat × α} (h : e ∈ Tab.set t i v) :
    e = (i, v) ∨ e ∈ t := by
  induction t with
  | nil => simpa [Tab.set] using h
  | cons p t ih =>
    obtain ⟨k, w⟩ := p
    simp only [Tab.set] at h
    split at h
    · simpa using h
    · split at h
      · rename_i hk; subst hk
        rcases List.mem_cons.1 h with h | h
        · exact .inl h
        · exact .inr (List.mem_cons_of_mem _ h)
      · rcases List.mem_cons.1 h with h | h
        · exact .inr (h ▸ List.mem_cons_self ..)
        · rcases ih h with h | h
          · exact .inl h
          · exact .inr (List.mem_cons_of_mem _ h)

/-- The tag that was changed. -/
@[simp] theorem Dev.tag_updTag (d : Dev) (n : Nat) (f : Tag → Tag) : (d.updTag n f).tag n = f (d.tag n) := by
  simp [Dev.updTag]

/-- Replacing a tag twice. -/
theorem Tab.set_set {α : Type} (t : Tab α) (i : Nat) (v w : α) : Tab.set (Tab.set t i v) i w = Tab.set t i w := by
  induction t with
  | nil => simp [Tab.set]
  | cons p t ih =>
    obtain ⟨k, x⟩ := p
    simp only [Tab.set]
    split
    · simp [Tab.set]
    · split
      · rename_i h1 h2; subst h2; simp [Tab.set]
      · rename_i h1 h2; simp [Tab.set, h1, h2, ih]

/-- Replacing a tag twice. -/
@[simp] theorem Dev.setTag_setTag (d : Dev) (n : Nat) (v w : Tag) : (d.setTag n v).setTag n w = d.setTag n w := by
  simp [Dev.setTag, Tab.set_set]

/-- Nothing waits after a tag that does not wait was written. -/
theorem Dev.noneWaits_setTag {d : Dev} (h : d.noneWaits) (n : Nat) (v : Tag) (hv : v.st = .active → v.ph ≠ .waiting) :
    (d.setTag n v).noneWaits := by
  intro e he
  rcases Tab.mem_set (t := d.tags) he with rfl | he
  · exact hv
  · exact h e he

/-- With no ORDERED command waiting none starts. -/
theorem Dev.orderedGo_idle {d : Dev} (h : d.noneWaits) : d.orderedGo = d := by
  have : d.tags.filter (fun e => e.2.st = .active && e.2.ph = .waiting && e.2.cmd.isSome) = [] := by
    rw [List.filter_eq_nil_iff]
    intro e he
    have := h e he
    simp; intro a b; exact absurd b (this a)
  unfold Dev.orderedGo
  split
  · rfl
  · simp [Dev.tagsInOrder, this, Dev.forEach, sortBy]

/-! ### Acceptance -/

/-- A command that is taken up and meets steps 1 to 5 begins, and ORDERED commands that may start then do. -/
theorem Dev.command_begins {d : Dev} {h : Hdr} {c : Cmd} (t : d.takesUp h)
    (early : (d.takeTag h (Cmd.op c)).early h (Cmd.op c) = none)
    (count : countOk (Cmd.op c) h.plen (Cmd.count c) = true) (free : (d.entered h c).blocked h.tag = false) :
    d.command h c = ((d.entered h c).begin h.tag).orderedGo := by
  have k : (d.takeTag h (Cmd.op c)).draining h.via = none := t.keeps
  unfold Dev.command Dev.accept Dev.tagCheck Dev.checkEarly
  simp only [t.ready, t.arrives, t.own, t.free, k, early, count, Bool.not_true, Bool.or_self, Bool.false_eq_true,
    if_false, if_true, ne_eq, not_true]
  unfold Dev.withCmd
  change (if (d.entered h c).blocked h.tag = true then d.entered h c else (d.entered h c).begin h.tag).orderedGo = _
  simp [free]

/-- The tag of the device that the checks see. -/
theorem Dev.entered_tag (d : Dev) (h : Hdr) (c : Cmd) : ((d.entered h c).tag h.tag).hdr = some h
    ∧ ((d.entered h c).tag h.tag).cmd = some c ∧ ((d.entered h c).tag h.tag).rsvd = 0 := by
  simp [Dev.entered, Dev.takeTag, Dev.updTag, Dev.tag, Dev.setTag]

/-- A command that passes its checks is authorised, sweeps what it disables, and takes its place in time. -/
theorem Dev.command_passes {d : Dev} {h : Hdr} {c : Cmd} (p : d.passes h c) :
    let x := (((d.entered h c).authorise c 0).1).sweepFor h.tag c
    d.command h c = (((x.updTag h.tag (fun t => { t with ph := .sched })).acceptTest h.tag c).placeCmd
      h.tag h c).orderedGo := by
  rw [Dev.command_begins p.totakesUp p.early p.count p.free_]
  unfold Dev.begin
  simp only [(Dev.entered_tag d h c).1, (Dev.entered_tag d h c).2.1, (Dev.entered_tag d h c).2.2, p.auth, p.valid, p.open_]
  simp

/-! ### The end of a tag -/

/-- A command that acts at once and whose effect leaves its own tag alone is settled with nothing outstanding: it completes
with OK. -/
theorem Dev.settle_applied {d : Dev} {n : Nat} (st : (d.tag n).st = .active) (effs : (d.tag n).effs = [])
    (waits : (d.tag n).waits = 0) (ctxs : (d.tag n).ctxs = []) (ph : (d.tag n).ph = .applied)
    (cmd : (d.tag n).cmd ≠ some .getSummary) : d.settle n = (d.envRecord n (d.tag n)).complete n := by
  unfold Dev.settle
  simp only [st, effs, waits, ctxs, ph]
  split
  · rename_i k; simp at k
  · rfl

/-- What completion leaves of a tag whose record is kept, and of everything else. -/
theorem Dev.finish_kept {d : Dev} {n : Nat} (status lt result : Nat) (st : (d.tag n).st = .active)
    (drop : (d.tag n).drop = false) (outQ : (d.tag n).outQ = []) :
    d.finish n status lt result = { d.setTag n { d.tag n with
      st := .done, status := status, lt := lt, result := result, epoch := d.sys.epoch, effs := [], waits := 0,
      seq := d.dones } with dones := d.dones + 1 } := by
  unfold Dev.finish
  simp [st, drop, outQ]

/-- A tag whose command has just been accepted and acts now: nothing is outstanding and nothing is recorded yet. -/
structure Tag.fresh (t : Tag) (h : Hdr) (c : Cmd) (sender : Nat) : Prop where
  st : t.st = .active
  ph : t.ph = .applied
  hdr : t.hdr = some h
  cmd : t.cmd = some c
  sender_ : t.sender = sender
  effs : t.effs = []
  done : t.done = []
  waits : t.waits = 0
  ctxs : t.ctxs = []
  drop : t.drop = false
  result : t.result = 0
  rstatus : t.rstatus = OK
  cancelAt : t.cancelAt = false
  outQ : t.outQ = []
  endLt : t.endLt = none
  counts : t.cancels = 0 ∧ t.zctos = 0 ∧ t.reqs = 0

/-- Domains on which a command that acts now has its effect in turn. -/
def Dev.nowOn (d : Dev) (c : Cmd) : List Nat :=
  match c with
  | .getSummary => []
  | _ => if Cmd.split c then d.domsOf c else (d.domsOf c).take 1

/-- The domain that a command which acts now reports. -/
def Dev.ltDomNow (d : Dev) (c : Cmd) : Nat := d.nowDom (if Cmd.split c then d.domsOf c else (d.domsOf c).take 1)

/-- The domains that a command changes depend on channels, objects, ports and the clock master only. -/
theorem Dev.domsOf_congr {d e : Dev} (c : Cmd) (chans : e.chans = d.chans) (objs : e.objs = d.objs)
    (ports : e.ports = d.ports) (tb : e.tb = d.tb) : e.domsOf c = d.domsOf c := by
  have h1 : ∀ n, e.chan n = d.chan n := fun n => by simp only [Dev.chan, chans]
  have h2 : ∀ n, e.obj n = d.obj n := fun n => by simp only [Dev.obj, objs]
  have h3 : ∀ n, e.port n = d.port n := fun n => by simp only [Dev.port, ports]
  have h4 : ∀ n, e.chainDom n = d.chainDom n := fun n => by simp only [Dev.chainDom, h1, tb]
  have h5 : e.chainDom = d.chainDom := funext h4
  simp only [Dev.domsOf, h1, h2, h3, h5, tb]

/-- A command that acts now has its effect and is settled. -/
theorem Dev.placeCmd_now {x : Dev} {n : Nat} {h : Hdr} {c : Cmd} (keeps : Cmd.disables c = [])
    (go : ((Cmd.mom c = .dis || (!h.atLt && (Cmd.mom c = .a || Cmd.stopsNow c)))
      || (x.domsOf c).all (fun r => !h.atLt && (x.dom r).st = .disabled)) = true) :
    x.placeCmd n h c = (((x.updTag n (fun t => { t with ph := .applied, ltDom := x.ltDomNow c })).forEach (x.nowOn c)
      (fun r e => e.effect n c r 0 0)).settle n) := by
  unfold Dev.placeCmd
  have w : x.stopMask c = 0 := by unfold Dev.stopMask; rw [keeps]; rfl
  simp only [go, if_true]
  unfold Dev.actNow Dev.nowOn Dev.ltDomNow
  simp only [w, Nat.or_zero]
  cases c <;> rfl

/-- A command that acts now: its tag is taken, its effect falls on one domain after the other, and it is settled. -/
theorem Dev.command_acts {d : Dev} {h : Hdr} {c : Cmd} (p : d.actsNow h c) (auth : authOf c 0 = none)
    (keeps : Cmd.disables c = []) (noTest : Cmd.testOf c = none) :
    ∃ T : Tag, T.fresh h c (d.senderOf h.via) ∧ d.command h c
      = ((({ d.setTag h.tag T with accepts := d.accepts + 1 } : Dev).forEach (d.nowOn c)
          (fun r e => e.effect h.tag c r 0 0)).settle h.tag).orderedGo := by
  have q := Dev.command_passes p.topasses
  have a1 : (d.entered h c).authorise c 0 = (d.entered h c, true) := by unfold Dev.authorise; rw [auth]
  rw [a1] at q
  have s1 : (d.entered h c).sweepFor h.tag c = d.entered h c := by
    unfold Dev.sweepFor; split
    · rfl
    · rfl
    · simp [keeps]
  simp only [s1] at q
  have t1 : ∀ x : Dev, x.acceptTest h.tag c = x := fun x => by unfold Dev.acceptTest; rw [noTest]
  rw [t1] at q
  rw [q]
  refine ⟨{ Tag.reset with
    st := .active, ph := .applied, hdr := some h, opcode := Cmd.op c, sender := d.senderOf h.via,
    side := Via.side h.via, ring := (d.cplOf h).1, reply := (d.cplOf h).2.1, order := d.accepts,
    drop := false, cmd := some c, ltDom := d.ltDomNow c },
    ⟨rfl, rfl, rfl, rfl, rfl, rfl, rfl, rfl, rfl, rfl, rfl, rfl, rfl, rfl, rfl, ⟨rfl, rfl, rfl⟩⟩, ?_⟩
  have dm : ∀ f : Tag → Tag, ((d.entered h c).updTag h.tag f).domsOf c = d.domsOf c := fun f => Dev.domsOf_congr c rfl rfl rfl rfl
  have off : ∀ (f : Tag → Tag) r, (((d.entered h c).updTag h.tag f).dom r) = d.dom r := fun f r => rfl
  have go : ((Cmd.mom c = .dis || (!h.atLt && (Cmd.mom c = .a || Cmd.stopsNow c)))
      || (d.domsOf c).all (fun r => !h.atLt && (d.dom r).st = .disabled)) = true := by
    simp only [p.asap]
    rcases p.now with k | k | k | k
    · simp [k]
    · simp [k]
    · simp [k]
    · simp only [Bool.or_eq_true]; right; rw [List.all_eq_true]; intro r hr; simp [k r hr]
  have no : ∀ f : Tag → Tag, ((d.entered h c).updTag h.tag f).nowOn c = d.nowOn c := fun f => by
    unfold Dev.nowOn; rw [dm]
  have nd : ∀ f : Tag → Tag, ((d.entered h c).updTag h.tag f).ltDomNow c = d.ltDomNow c := fun f => by
    unfold Dev.ltDomNow; rw [dm]; rfl
  rw [Dev.placeCmd_now keeps (by rw [dm]; exact go), no, nd]
  simp only [Dev.entered, Dev.takeTag, Dev.updTag, Dev.setTag, Tab.set_set, Dev.tag, Tab.get_set_same]
  rfl

/-- A completed tag whose record is kept. -/
theorem Dev.complete_fresh {y : Dev} {h : Hdr} {c : Cmd} {n sender : Nat} (f : (y.tag n).fresh h c sender) :
    ∃ U : Tag, y.complete n = { y with tags := Tab.set y.tags n U, dones := y.dones + 1 } ∧ U.st = .done
      ∧ U.status = OK ∧ U.effs = [] ∧ U.result = 0 := by
  unfold Dev.complete
  rw [Dev.finish_kept]
  · simp only [Dev.setTag, Tab.set_set]
    exact ⟨_, rfl, rfl, f.rstatus, rfl, f.result⟩
  · simp [f.st]
  · simp [f.drop]
  · simp [f.outQ]

/-- A command whose effect touches neither tags nor counts completes at once with the effect's device. -/
theorem Dev.command_acted {d x : Dev} {h : Hdr} {c : Cmd} (p : d.actsNow h c) (auth : authOf c 0 = none)
    (keeps : Cmd.disables c = []) (noTest : Cmd.testOf c = none) (summary : c ≠ .getSummary)
    (env : ∀ m v t x p r l, c ≠ .envSet m v t x p r l)
    (eff : ∀ T : Tag, T.fresh h c (d.senderOf h.via) →
      (({ d.setTag h.tag T with accepts := d.accepts + 1 } : Dev).forEach (d.nowOn c) (fun r e => e.effect h.tag c r 0 0))
        = { x with tags := Tab.set d.tags h.tag T, accepts := d.accepts + 1, dones := d.dones }) :
    d.acted (d.command h c) x h 0 := by
  obtain ⟨T, f, e⟩ := Dev.command_acts p auth keeps noTest
  rw [e, eff T f]
  have tg : (({ x with tags := Tab.set d.tags h.tag T, accepts := d.accepts + 1, dones := d.dones } : Dev).tag h.tag) = T := by
    simp [Dev.tag]
  rw [Dev.settle_applied (by rw [tg]; exact f.st) (by rw [tg]; exact f.effs) (by rw [tg]; exact f.waits)
    (by rw [tg]; exact f.ctxs) (by rw [tg]; exact f.ph) (by rw [tg, f.cmd]; simpa using summary)]
  have er : ∀ y : Dev, y.envRecord h.tag T = y := fun y => by
    unfold Dev.envRecord; rw [f.cmd]; cases c <;> first | rfl | exact absurd rfl (env _ _ _ _ _ _ _) | simp [authOf] at auth
  rw [tg, er]
  obtain ⟨U, eq, u1, u2, u3, u4⟩ := Dev.complete_fresh (y := { x with tags := Tab.set d.tags h.tag T, accepts := d.accepts + 1, dones := d.dones })
    (n := h.tag) (by rw [tg]; exact f)
  rw [eq, Dev.orderedGo_idle]
  · simp only [Tab.set_set]
    refine ⟨rfl, ⟨?_, ?_, ?_⟩, ?_, ?_⟩
    · simp [Dev.tag, u1]
    · simp [Dev.tag, u2]
    · simp [Dev.tag, u3]
    · simp [Dev.tag, u4]
    · intro m hm; simp [Dev.tag, Tab.get_set_other _ _ _ hm]
  · intro z hz
    simp only [Tab.set_set] at hz
    rcases Tab.mem_set hz with rfl | hz
    · intro k; simp [u1] at k
    · exact p.idle z hz

/-- The row of a command on a live device is the command. -/
theorem State.runs_command {s : State} {i : Instr} {h : Hdr} {c : Cmd} {p : Dev → Prop} (row : exec i s = s.command h c)
    (live : s.dev.live = true) (q : p (s.dev.command h c)) : s.runs i p := by
  refine ⟨_, ?_, q⟩
  rw [row]; unfold State.command State.onLive; simp [live, State.onDev]

end Sys2Proof.Machine
end

