-- ==== Sys2Proof/Laws/Ops.lean ====
section
/-! SUPPORT. What signalling and reporting can do: one lemma per shared operation, with reflexivity and transitivity of
the two relations. -/

namespace Sys2Proof.Machine

/-! ### Interrupts and messages -/

theorem Fn.signalled_refl (f : Fn) : f.signalled f := rfl
theorem Fn.signalled_trans {f g h : Fn} (a : f.signalled g) (b : g.signalled h) : f.signalled h := by
  unfold Fn.signalled at *; rw [b, a]
theorem Link.settingsKept_trans {l m k : Link} (a : l.settingsKept m) (b : m.settingsKept k) : l.settingsKept k := by
  unfold Link.settingsKept at *; rw [b, a]
theorem Dev.signalled_refl (d : Dev) : d.signalled d := ⟨rfl, fun _ => rfl, rfl⟩
theorem Dev.signalled_trans {d e f : Dev} (a : d.signalled e) (b : e.signalled f) : d.signalled f := by
  obtain ⟨a1, a2, a3⟩ := a
  obtain ⟨b1, b2, b3⟩ := b
  refine ⟨b1.trans (by rw [a1]), fun n => Fn.signalled_trans (a2 n) (b2 n), Link.settingsKept_trans a3 b3⟩

/-- Something leaves. -/
theorem Dev.signalled_emit (d : Dev) (o : Out) : d.signalled (d.emit o) := by
  refine ⟨rfl, fun _ => rfl, ?_⟩
  unfold Link.settingsKept Dev.emit
  cases o.onLink <;> rfl

/-- A write to host memory leaves. -/
theorem Dev.signalled_dma1 (d : Dev) (dom iova : Nat) (bulk iso ep : Bool) (b : List Nat) :
    d.signalled (d.dma1 dom iova bulk iso ep b) := d.signalled_emit _

/-- A function's causes or pending messages change. -/
theorem Dev.signalled_setFn {d : Dev} {n : Nat} {g : Fn} (h : Fn.signalled (d.fn n) g) : d.signalled (d.setFn n g) := by
  refine ⟨rfl, fun k => ?_, rfl⟩
  by_cases hk : k = n
  · subst hk; rw [setFn_fn]; exact h
  · rw [setFn_fn_other d n k g hk]; rfl

/-- One MSI-X message: nothing, the pending bit, or the message. -/
theorem Dev.signalled_msix (d : Dev) (fn v : Nat) : d.signalled (d.msix fn v) := by
  unfold Dev.msix
  simp only
  split
  · exact d.signalled_refl
  · split
    · exact Dev.signalled_setFn rfl
    · exact d.signalled_emit _

/-- A change of the cause block. -/
theorem Dev.signalled_updCause (d : Dev) (fn : Nat) (g : Fn → Fn) (h : Fn.signalled (d.fn fn) (g (d.fn fn))) :
    d.signalled (d.updCause fn g) := by
  unfold Dev.updCause
  simp only
  have a : d.signalled (d.updFn fn g) := Dev.signalled_setFn h
  split
  · exact Dev.signalled_trans a (Dev.signalled_msix ..)
  · exact a

theorem Dev.signalled_setCause (d : Dev) (fn k : Nat) : d.signalled (d.setCause fn k) := d.signalled_updCause fn _ rfl

theorem Dev.signalled_ringMsg (d : Dev) (k : Nat) : d.signalled (d.ringMsg k) := by
  unfold Dev.ringMsg
  simp only
  split
  · exact d.signalled_msix ..
  · exact d.signalled_updCause _ _ rfl

theorem Dev.signalled_mbxMsg (d : Dev) (ch : Nat) : d.signalled (d.mbxMsg ch) := by
  unfold Dev.mbxMsg
  simp only
  split
  · exact d.signalled_msix ..
  · exact d.signalled_updCause _ _ rfl

/-! ### Reports -/

theorem Fn.settingsKept_refl (f : Fn) : f.settingsKept f := rfl
theorem Fn.settingsKept_trans {f g h : Fn} (a : f.settingsKept g) (b : g.settingsKept h) : f.settingsKept h := by
  unfold Fn.settingsKept at *; rw [b, a]
theorem Fn.signalled_settingsKept {f g : Fn} (a : f.signalled g) : f.settingsKept g := by
  unfold Fn.settingsKept; unfold Fn.signalled at a; rw [a]
theorem Ring.settingsKept_refl (r : Ring) : r.settingsKept r := ⟨rfl, .inl rfl⟩
theorem Ring.settingsKept_trans {r q p : Ring} (a : r.settingsKept q) (b : q.settingsKept p) : r.settingsKept p := by
  obtain ⟨a1, a2⟩ := a
  obtain ⟨b1, b2⟩ := b
  refine ⟨by rw [b1, a1], ?_⟩
  rcases a2 with a2 | ⟨a2, a3⟩ <;> rcases b2 with b2 | ⟨b2, b3⟩
  · exact .inl (b2.trans a2)
  · exact .inr ⟨a2 ▸ b2, b3⟩
  · exact .inr ⟨a2, b2.trans a3⟩
  · exact .inr ⟨a2, b3⟩
theorem Mbx.settingsKept_refl (m : Mbx) : m.settingsKept m := rfl
theorem Mbx.settingsKept_trans {m n p : Mbx} (a : m.settingsKept n) (b : n.settingsKept p) : m.settingsKept p := by
  unfold Mbx.settingsKept at *; rw [b, a]
theorem Trn.settingsKept_trans {t u v : Trn} (a : t.settingsKept u) (b : u.settingsKept v) : t.settingsKept v := by
  unfold Trn.settingsKept at *; rw [b, a]

theorem Dev.reported_refl (d : Dev) : d.reported d :=
  ⟨rfl, fun _ => rfl, fun _ => ⟨rfl, .inl rfl⟩, fun _ => rfl, rfl, rfl⟩
theorem Dev.reported_trans {d e f : Dev} (a : d.reported e) (b : e.reported f) : d.reported f := by
  obtain ⟨a1, a2, a3, a4, a5, a6⟩ := a
  obtain ⟨b1, b2, b3, b4, b5, b6⟩ := b
  exact ⟨b1.trans (by rw [a1]), fun n => Fn.settingsKept_trans (a2 n) (b2 n), fun n => Ring.settingsKept_trans (a3 n) (b3 n),
    fun n => Mbx.settingsKept_trans (a4 n) (b4 n), Link.settingsKept_trans a5 b5, Trn.settingsKept_trans a6 b6⟩

/-- Signalling is reporting. -/
theorem Dev.reported_of_signalled {d e : Dev} (a : d.signalled e) : d.reported e := by
  obtain ⟨a1, a2, a3⟩ := a
  refine ⟨by rw [a1], fun n => Fn.signalled_settingsKept (a2 n), fun n => ?_, fun n => ?_, a3, ?_⟩
  · rw [show e.ring n = d.ring n by rw [a1]; rfl]; exact Ring.settingsKept_refl _
  · rw [show e.mbx n = d.mbx n by rw [a1]; rfl]; rfl
  · rw [show e.trn = d.trn by rw [a1]]; rfl

theorem Dev.reported_setFn {d : Dev} {n : Nat} {g : Fn} (h : Fn.settingsKept (d.fn n) g) : d.reported (d.setFn n g) := by
  refine ⟨rfl, fun k => ?_, fun _ => Ring.settingsKept_refl _, fun _ => rfl, rfl, rfl⟩
  by_cases hk : k = n
  · subst hk; rw [setFn_fn]; exact h
  · rw [setFn_fn_other d n k g hk]; rfl

theorem Dev.reported_setRing {d : Dev} {n : Nat} {g : Ring} (h : Ring.settingsKept (d.ring n) g) : d.reported (d.setRing n g) := by
  refine ⟨rfl, fun _ => rfl, fun k => ?_, fun _ => rfl, rfl, rfl⟩
  by_cases hk : k = n
  · subst hk; rw [setRing_ring]; exact h
  · rw [setRing_ring_other d n k g hk]; exact Ring.settingsKept_refl _

theorem Dev.reported_setMbx {d : Dev} {n : Nat} {g : Mbx} (h : Mbx.settingsKept (d.mbx n) g) : d.reported (d.setMbx n g) := by
  refine ⟨rfl, fun _ => rfl, fun _ => Ring.settingsKept_refl _, fun k => ?_, rfl, rfl⟩
  by_cases hk : k = n
  · subst hk; rw [setMbx_mbx]; exact h
  · rw [setMbx_mbx_other d n k g hk]; rfl

theorem Dev.reported_trn {d : Dev} {u : Trn} (h : d.trn.settingsKept u) : d.reported { d with trn := u } :=
  ⟨rfl, fun _ => rfl, fun _ => Ring.settingsKept_refl _, fun _ => rfl, rfl, h⟩

theorem Dev.reported_faults (d : Dev) (l : List (Evt × Nat)) : d.reported { d with faults := l } :=
  ⟨rfl, fun _ => rfl, fun _ => Ring.settingsKept_refl _, fun _ => rfl, rfl, rfl⟩

theorem Dev.reported_mdt (d : Dev) (m : Mdt) : d.reported { d with mdt := m } :=
  ⟨rfl, fun _ => rfl, fun _ => Ring.settingsKept_refl _, fun _ => rfl, rfl, rfl⟩

/-- A change for each number of a list. -/
theorem Dev.reported_forEach {f : Nat → Dev → Dev} (h : ∀ n d, Dev.reported d (f n d)) :
    ∀ (l : List Nat) (d : Dev), d.reported (d.forEach l f)
  | [], d => d.reported_refl
  | n :: t, d => Dev.reported_trans (h n d) (Dev.reported_forEach h t (f n d))

/-- A choice of two reports. -/
theorem Dev.reported_ite {p : Prop} [Decidable p] {d x y : Dev} (a : d.reported x) (b : d.reported y) :
    d.reported (if p then x else y) := by
  split
  · exact a
  · exact b

/-! ### Rings and fault records -/

/-- A count of a ring's records. -/
theorem Dev.reported_countHeld (d : Dev) (fn type : Nat) : d.reported (d.countHeld fn type) := by
  unfold Dev.countHeld
  split
  · exact Dev.reported_setRing ⟨rfl, .inl rfl⟩
  · exact d.reported_refl

theorem Dev.reported_countLost (d : Dev) (fn type : Nat) : d.reported (d.countLost fn type) := by
  unfold Dev.countLost
  split
  · exact Dev.reported_setRing ⟨rfl, .inl rfl⟩
  · exact d.reported_refl

/-- An index is published: the ring moves on, the index block is written, and a message may follow. -/
theorem Dev.reported_indexed (d : Dev) (k : Nat) (q : Ring) (c : Bool) (dom iova : Nat) (b : List Nat)
    (h : (d.ring k).settingsKept q) :
    d.reported (if c = true then ((d.setRing k q).dma1 dom iova false false false b).ringMsg k
      else (d.setRing k q).dma1 dom iova false false false b) :=
  Dev.reported_trans (Dev.reported_trans (Dev.reported_setRing h) (Dev.reported_of_signalled (Dev.signalled_dma1 ..)))
    (Dev.reported_ite (Dev.reported_of_signalled (Dev.signalled_ringMsg ..)) (Dev.reported_refl _))

/-- A staged record leaves and its mark is used up. -/
theorem Dev.reported_leaves (d : Dev) (k dom iova : Nat) (bulk iso ep : Bool) (b : List Nat) :
    d.reported ((d.dma1 dom iova bulk iso ep b).epDone k iova) :=
  Dev.reported_trans (Dev.reported_of_signalled (Dev.signalled_dma1 ..)) (Dev.reported_trn rfl)

/-- An entry of a device-produced ring that can be written. -/
theorem Dev.reported_putRaw (d : Dev) (k : Nat) (b : List Nat) : d.reported (d.putRaw k b) := by
  unfold Dev.putRaw
  simp only
  refine Dev.reported_trans (d.reported_leaves k (d.ring k).owner ((d.ring k).slotAddr (d.ring k).tail) (d.ring k).bulk
    (d.ring k).iso (d.epAt k ((d.ring k).slotAddr (d.ring k).tail)) b) ?_
  generalize hx : (d.dma1 (d.ring k).owner ((d.ring k).slotAddr (d.ring k).tail) (d.ring k).bulk (d.ring k).iso
    (d.epAt k ((d.ring k).slotAddr (d.ring k).tail)) b).epDone k ((d.ring k).slotAddr (d.ring k).tail) = x
  have hr : x.ring k = d.ring k := by subst hx; rfl
  refine Dev.reported_ite (Dev.reported_setRing ?_) (Dev.reported_indexed x k _ _ _ _ _ ?_) <;>
    (rw [hr]; exact ⟨rfl, .inl rfl⟩)

/-- A RUNNING ring stalls. -/
theorem Dev.reported_stallRing (d : Dev) (k : Nat) (h : (d.ring k).st = .running) :
    d.reported (d.updRing k (fun r => { r with st := .stalled })) := Dev.reported_setRing ⟨rfl, .inr ⟨h, rfl⟩⟩

/-- A stall: the stream joins the stalled ones, its ring stops, and the cause is set. -/
theorem Dev.reported_stallMark (d : Dev) (st iova len : Nat) (write : Bool) : d.reported (d.stallMark st iova len write) := by
  have h : ∀ (x : Dev), d.reported x → d.reported (Dev.setCause
      (if (decide (st < 0x1000) && decide ((x.ring st).st = .running)) = true then x.updRing st (fun r => { r with st := .stalled })
        else x) (d.streamFn st) 5) := by
    intro x hx
    refine Dev.reported_trans ?_ (Dev.reported_of_signalled (Dev.signalled_setCause ..))
    by_cases c : (decide (st < 0x1000) && decide ((x.ring st).st = .running)) = true
    · rw [if_pos c]
      simp only [Bool.and_eq_true, decide_eq_true_eq] at c
      exact Dev.reported_trans hx (x.reported_stallRing st c.2)
    · rw [if_neg c]; exact hx
  exact h _ (Dev.reported_trn rfl)

/-- A fault record as bytes. -/
theorem Dev.reported_fltNote (d : Dev) (fn kind code stream dom flags iova detail : Nat) :
    d.reported (d.fltNote fn kind code stream dom flags iova detail).2 := by
  have h : ∀ (n : Nat) (l : List Nat), d.reported (d.setFn fn { d.fn fn with fltSeq := n, last := l }) :=
    fun _ _ => Dev.reported_setFn rfl
  simp only [Dev.fltNote]
  exact h _ _

/-- A fault record that is lost. -/
theorem Dev.reported_fltLose (d : Dev) (fn : Nat) : d.reported (d.fltLose fn) := by
  have h : ∀ n : Nat, d.reported (d.setFn fn { d.fn fn with fltLost := n }) := fun _ => Dev.reported_setFn rfl
  unfold Dev.fltLose Dev.updFn
  exact Dev.reported_trans (Dev.reported_trans (h _) (Dev.reported_countLost ..)) (Dev.reported_of_signalled (Dev.signalled_setCause ..))

/-- The bytes of a fault record. -/
theorem Dev.reported_fltPut (d : Dev) (fn : Nat) (b : List Nat) : d.reported (d.fltPut fn b) := by
  unfold Dev.fltPut
  split
  · refine Dev.reported_ite ?_ (Dev.reported_fltLose ..)
    split
    · exact Dev.reported_putRaw ..
    · exact Dev.reported_trans (Dev.reported_trans (Dev.reported_trans (Dev.reported_fltLose ..) (Dev.reported_stallMark ..))
        (Dev.reported_fltNote ..)) (Dev.reported_fltLose ..)
  · exact Dev.reported_fltLose ..

/-- A fault record of the DMA path. -/
theorem Dev.reported_fltRecord (d : Dev) (fn kind code stream dom flags iova detail : Nat) :
    d.reported (d.fltRecord fn kind code stream dom flags iova detail) :=
  Dev.reported_trans (d.reported_fltNote ..) (Dev.reported_fltPut ..)

/-- A stream that waits for the host. -/
theorem Dev.reported_stallOn (d : Dev) (st iova len code level : Nat) (write walk : Bool) :
    d.reported (d.stallOn st iova len code level write walk) :=
  Dev.reported_trans (Dev.reported_stallMark ..) (Dev.reported_fltRecord ..)

/-- A look at the next places of a ring. -/
theorem Dev.reported_reachAt (d : Dev) (k : Nat) (l : List (Nat × Nat)) : d.reported (d.reachAt k l).1 := by
  unfold Dev.reachAt
  simp only
  split
  · exact d.reported_refl
  · split
    · exact d.reported_refl
    · exact Dev.reported_stallOn ..

theorem Dev.reported_reach (d : Dev) (k len : Nat) : d.reported (d.reach k len).1 := Dev.reported_reachAt ..

theorem Dev.reported_publish (d : Dev) (k sc : Nat) : d.reported (d.publish k sc) := by
  unfold Dev.publish
  simp only
  split
  · exact Dev.reported_setRing ⟨rfl, .inl rfl⟩
  · split
    · exact Dev.reported_ite d.reported_refl (Dev.reported_stallOn ..)
    · exact Dev.reported_indexed d k _ _ _ _ _ ⟨rfl, .inl rfl⟩

theorem Dev.reported_watermark (d : Dev) (k : Nat) : d.reported (d.watermark k) :=
  Dev.reported_ite (Dev.reported_setRing ⟨rfl, .inl rfl⟩) d.reported_refl

theorem Dev.reported_moved (d : Dev) (k : Nat) : d.reported (d.moved k) :=
  Dev.reported_trans (d.reported_watermark k) (Dev.reported_ite (Dev.reported_refl _) (Dev.reported_publish ..))

/-- An entry of a device-produced ring. -/
theorem Dev.reported_putEntry (d : Dev) (k : Nat) (b : List Nat) : d.reported (d.putEntry k b) := d.reported_putRaw k b

/-! ### Mordant records and events -/

/-- A Mordant record. -/
theorem Dev.reported_mordant (d : Dev) (kind subject sev origin : Nat) (data : List Nat) :
    d.reported (d.mordant kind subject sev origin data) := by
  unfold Dev.mordant
  simp only
  split
  · exact d.reported_refl
  · split
    · exact d.reported_mdt _
    · split <;> exact d.reported_mdt _

/-- An event that waits, or is lost. -/
theorem Dev.reported_keepEvent (d : Dev) (fn : Nat) (e : Evt) : d.reported (d.keepEvent fn e) := by
  have h : ∀ (l : List Evt) (n : Nat), d.reported (d.setFn fn { d.fn fn with held := l, evtLost := n }) :=
    fun _ _ => Dev.reported_setFn rfl
  exact Dev.reported_ite (Dev.reported_trans (h _ _) (Dev.reported_countHeld ..))
    (Dev.reported_trans (h _ _) (Dev.reported_countLost ..))

/-- One event for one function. -/
theorem Dev.reported_deliver (d : Dev) (fn : Nat) (e : Evt) : d.reported (d.deliver fn e) := by
  let x := d.setFn fn { d.fn fn with evtSeq := ((d.fn fn).evtSeq + 1) % 65536 }
  have a : d.reported x := Dev.reported_setFn rfl
  refine Dev.reported_trans a ?_
  change x.reported (match x.firstRing fn 9 with | some k => _ | none => _)
  split
  · refine Dev.reported_ite ?_ (Dev.reported_keepEvent ..)
    refine Dev.reported_ite (Dev.reported_trans (Dev.reported_reach ..) (Dev.reported_putEntry ..)) ?_
    exact Dev.reported_trans (Dev.reported_reach ..) (Dev.reported_keepEvent ..)
  · exact Dev.reported_keepEvent ..

/-- Messages for mailbox channels. -/
theorem Dev.reported_upstream (d : Dev) (chs : List Nat) (type : Nat) (body : List Nat) : d.reported (d.upstream chs type body) :=
  Dev.reported_forEach (fun ch x => by
    have h : ∀ (n : Nat) (l : List (Nat × UpMsg)), x.reported (x.setMbx ch { x.mbx ch with upRefused := n, repost := l }) :=
      fun _ _ => Dev.reported_setMbx rfl
    unfold Dev.updMbx
    by_cases c : (x.mbx ch).upbuf = 0
    · simp only [c, if_true]; exact c ▸ h _ _
    · simp only [c, if_false]; exact h _ _) _ _

/-- An open fault closes. -/
theorem Dev.reported_closeFault (d : Dev) (code subject : Nat) : d.reported (d.closeFault code subject) := d.reported_faults _

/-- An event. -/
theorem Dev.reported_raiseLt (d : Dev) (lt code subject data flags : Nat) : d.reported (d.raiseLt lt code subject data flags) := by
  unfold Dev.raiseLt
  simp only
  refine Dev.reported_trans ?_ (Dev.reported_forEach (fun n x => ?_) _ _)
  · split
    · refine Dev.reported_trans ?_ (Dev.reported_closeFault ..)
      exact Dev.reported_ite (d.reported_faults _) d.reported_refl
    · exact Dev.reported_ite (d.reported_faults _) d.reported_refl
  · split
    · exact Dev.reported_trans (Dev.reported_deliver ..) (Dev.reported_upstream ..)
    · exact Dev.reported_deliver ..

theorem Dev.reported_raiseIn (d : Dev) (dm code subject data flags : Nat) : d.reported (d.raiseIn dm code subject data flags) :=
  d.reported_raiseLt ..
theorem Dev.reported_raise (d : Dev) (code subject data : Nat) : d.reported (d.raise code subject data) := d.reported_raiseLt ..
theorem Dev.reported_alarmIn (d : Dev) (dm code subject data flags origin : Nat) :
    d.reported (d.alarmIn dm code subject data flags origin) :=
  Dev.reported_trans (d.reported_raiseIn ..) (Dev.reported_mordant ..)
theorem Dev.reported_alarm (d : Dev) (code subject data : Nat) : d.reported (d.alarm code subject data) := d.reported_alarmIn ..

/-! ### Locks and the rest of the state -/

/-- A change of the device while the engines run. -/
theorem State.onLive_eq (s : State) (f : Dev → Dev) : s.onLive f = { s with dev := if s.dev.live then f s.dev else s.dev } := by
  unfold State.onLive State.onDev
  split <;> rfl

theorem State.onLive_outerKept (s : State) (f : Dev → Dev) : s.outerKept (s.onLive f) := by
  rw [State.onLive_eq]; exact ⟨rfl, rfl, rfl⟩

theorem State.onLive_live {s : State} (h : s.dev.live = true) (f : Dev → Dev) : s.onLive f = { s with dev := f s.dev } := by
  rw [State.onLive_eq, h]; rfl

end Sys2Proof.Machine
end

