-- ==== Sys2Proof/Laws/Window.lean ====
section
/-! SUPPORT. The sideband window: reads after writes, and that every operation keeps the canonical form. -/

namespace Sys2Proof.Machine.Memory

/-- The dropped offset reads as zero, every other one as before. -/
theorem read_drop (w : List Host.Cell) (a x : Nat) : read (drop w a) x = if x = a then 0 else read w x := by
  induction w with
  | nil => simp [read, drop, Tab.get]
  | cons c t ih =>
    obtain ⟨k, v⟩ := c
    simp only [read, drop, Tab.get] at ih ⊢
    by_cases hk : k = a
    · subst hk
      simp only [List.filter_cons, ne_eq, not_true, decide_false, Bool.false_eq_true, if_false]
      by_cases hx : x = k
      · simp [hx] at ih ⊢; exact ih
      · simp only [if_neg hx, if_neg (Ne.symm hx)] at ih ⊢; simpa using ih
    · simp only [List.filter_cons, ne_eq, hk, not_false_eq_true, decide_true, if_true, Tab.get]
      by_cases hx : k = x
      · subst hx; simp [hk]
      · simp only [if_neg hx]; exact ih

/-- A read after a write of one byte within the window. -/
theorem read_write (w : List Host.Cell) (a x : Nat) (b : Byte) (h : a < 256) :
    read (write w a b) x = if x = a then b else read w x := by
  unfold write
  rw [if_neg (by omega)]
  split
  · rename_i hb; subst hb; exact read_drop w a x
  · unfold read
    by_cases hx : x = a
    · subst hx; simp
    · simp [hx, Tab.get_set_other _ _ _ hx]

/-- A read after a write of several bytes that stays within the window. -/
theorem read_writeAll (l : List Byte) : ∀ (w : List Host.Cell) (a x : Nat), a + l.length ≤ 256 →
    read (writeAll w a l) x = if a ≤ x ∧ x < a + l.length then (l[x - a]?).getD 0 else read w x := by
  induction l with
  | nil =>
    intro w a x _
    simp only [writeAll, List.length_nil]
    rw [if_neg (by omega)]
  | cons b t ih =>
    intro w a x h
    simp only [List.length_cons] at h
    simp only [writeAll]
    rw [ih (write w a b) (a + 1) x (by omega), read_write w a x b (by omega)]
    simp only [List.length_cons]
    by_cases h1 : x = a
    · subst h1
      rw [if_neg (by omega), if_pos rfl, if_pos (by omega), Nat.sub_self]
      rfl
    · by_cases h2 : a + 1 ≤ x ∧ x < a + 1 + t.length
      · rw [if_pos h2, if_pos (by omega)]
        have : x - a = (x - (a + 1)) + 1 := by omega
        rw [this]; simp
      · rw [if_neg h2, if_neg h1, if_neg (by omega)]

/-- The bound may be lowered. -/
theorem wfFrom_mono {lo lo' : Nat} (h : lo' ≤ lo) : ∀ {w : List Host.Cell}, wfFrom lo w = true → wfFrom lo' w = true
  | [], _ => rfl
  | c :: t, k => by
    simp only [wfFrom, Bool.and_eq_true, decide_eq_true_eq] at k ⊢
    exact ⟨⟨⟨by omega, k.1.1.2⟩, k.1.2⟩, k.2⟩

/-- Dropping an offset keeps the form. -/
theorem wfFrom_drop (a : Nat) : ∀ {w : List Host.Cell} {lo : Nat}, wfFrom lo w = true → wfFrom lo (drop w a) = true
  | [], _, _ => rfl
  | c :: t, lo, k => by
    simp only [wfFrom, Bool.and_eq_true, decide_eq_true_eq] at k
    simp only [drop, List.filter_cons]
    split
    · simp only [wfFrom, Bool.and_eq_true, decide_eq_true_eq]
      exact ⟨k.1, wfFrom_drop a k.2⟩
    · exact wfFrom_mono (by omega) (wfFrom_drop a k.2)

/-- Setting an offset to a byte other than zero keeps the form. -/
theorem wfFrom_set {a : Nat} {b : Byte} (hb : b ≠ 0) (ha : a < 256) :
    ∀ {w : List Host.Cell} {lo : Nat}, lo ≤ a → wfFrom lo w = true → wfFrom lo (Tab.set w a b) = true
  | [], lo, h, _ => by simp [Tab.set, wfFrom, ha, h]; simpa using hb
  | c :: t, lo, h, k => by
    obtain ⟨i, v⟩ := c
    simp only [wfFrom, Bool.and_eq_true, decide_eq_true_eq] at k
    simp only [Tab.set]
    split
    · rename_i hi
      simp only [wfFrom, Bool.and_eq_true, decide_eq_true_eq]
      exact ⟨⟨⟨h, ha⟩, by simpa using hb⟩, ⟨⟨by omega, k.1.1.2⟩, k.1.2⟩, k.2⟩
    · split
      · rename_i hi; subst hi
        simp only [wfFrom, Bool.and_eq_true, decide_eq_true_eq]
        exact ⟨⟨⟨k.1.1.1, ha⟩, by simpa using hb⟩, k.2⟩
      · simp only [wfFrom, Bool.and_eq_true, decide_eq_true_eq]
        exact ⟨k.1, wfFrom_set hb ha (by omega) k.2⟩

/-- Every write of a byte keeps the form. -/
theorem wf_write {w : List Host.Cell} (a : Nat) (b : Byte) (h : wf w = true) : wf (write w a b) = true := by
  unfold write
  split
  · exact h
  · split
    · exact wfFrom_drop a h
    · rename_i ha hb; exact wfFrom_set hb (by omega) (Nat.zero_le _) h

/-- Every write of several bytes keeps the form. -/
theorem wf_writeAll : ∀ (l : List Byte) {w : List Host.Cell} (a : Nat), wf w = true → wf (writeAll w a l) = true
  | [], _, _, h => h
  | b :: t, _, a, h => wf_writeAll t (a + 1) (wf_write a b h)

/-- The window after reset lists nothing. -/
theorem wf_reset : wf State.reset.win = true := rfl

end Sys2Proof.Machine.Memory
end

