-- ==== Sys2Proof/Tests/Slice0.lean ====
section
/-! SUPPORT. Tests: for every statement with hypotheses a witness that meets them, an ill-formed term for each check of
WellFormed.lean, and single steps whose expected values stand in the manual. -/

open Sys2Proof Sys2Proof.Machine
namespace Sys2Proof.Tests
set_option Elab.async false

/-- A device that runs: booted, link up at 16 GT/s x2, 100 s after reset. -/
def base : Dev :=
  { State.reset.dev with
    sys := { State.reset.dev.sys with ready := true, phase := 8, uptime := 100000000 }
    link := { State.reset.dev.link with up := true, speed := 4, width := 2 } }

/-- A state with a device. -/
def st (d : Dev) : State := { State.reset with dev := d }

/-- PLEN of a command. -/
def plenOf (c : Cmd) : Nat := match rowOf (Cmd.op c) with | some r => r.fixed + r.unit * Cmd.count c | none => 0

/-- A descriptor of PF1 through MB0 with tag 400. -/
def hdr (c : Cmd) : Hdr :=
  { via := .mbx 0, reply := 0, tag := 400, atLt := false, domain := 0, ordered := false, lt := 0, payload := 0,
    plen := plenOf c, out := 0, outlen := 0, rsvd := 0, len := 64 + plenOf c }

/-- The hypotheses of `Dev.takesUp`. -/
def takesB (d : Dev) (h : Hdr) : Bool :=
  d.live && d.sys.ready && d.arrives h.via && ownTag (d.senderOf h.via) h.tag && decide ((d.tag h.tag).st = .free)
    && decide (d.draining h.via = none) && decide (∀ e ∈ d.tags, e.2.st = .active → e.2.ph ≠ .waiting)

/-- Those of `Dev.passes` beside them. -/
def passB (d : Dev) (h : Hdr) (c : Cmd) : Bool :=
  let a := (d.entered h c).authorise c 0
  decide ((d.takeTag h (Cmd.op c)).early h (Cmd.op c) = none) && countOk (Cmd.op c) h.plen (Cmd.count c)
    && !(d.entered h c).blocked h.tag && a.2 && decide (a.1.refuse h.tag h c = none) && decide (a.1.swept h.tag c = none)

/-- Those of `Dev.actsNow` beside them. -/
def nowB (d : Dev) (h : Hdr) (c : Cmd) : Bool :=
  !h.atLt && decide (Cmd.mom c = .a ∨ Cmd.mom c = .dis ∨ Cmd.stopsNow c = true ∨ ∀ r ∈ d.domsOf c, (d.dom r).st = .disabled)

theorem takes_of {d : Dev} {h : Hdr} (x : takesB d h = true) : d.takesUp h := by
  simp only [takesB, Bool.and_eq_true, decide_eq_true_eq] at x
  obtain ⟨⟨⟨⟨⟨⟨a, b⟩, c⟩, e⟩, f⟩, g⟩, i⟩ := x
  exact ⟨a, b, c, e, f, g, i⟩

theorem passes_of {d : Dev} {h : Hdr} {c : Cmd} (x : takesB d h = true) (y : passB d h c = true) : d.passes h c := by
  simp only [passB, Bool.and_eq_true, Bool.not_eq_true', decide_eq_true_eq] at y
  obtain ⟨⟨⟨⟨⟨a, b⟩, e⟩, f⟩, g⟩, i⟩ := y
  exact { takes_of x with early := a, count := b, free_ := e, auth := f, valid := g, open_ := i }

theorem now_of {d : Dev} {h : Hdr} {c : Cmd} (x : takesB d h = true) (y : passB d h c = true) (z : nowB d h c = true) :
    d.actsNow h c := by
  simp only [nowB, Bool.and_eq_true, Bool.not_eq_true', decide_eq_true_eq] at z
  exact { passes_of x y with asap := z.1, now := z.2 }

/-- Commands that act at once on the running device. -/
def acts (d : Dev) (c : Cmd) : Prop := d.actsNow (hdr c) c

theorem acts_of {d : Dev} {c : Cmd} (x : (takesB d (hdr c) && passB d (hdr c) c && nowB d (hdr c) c) = true) : acts d c := by
  simp only [Bool.and_eq_true] at x
  exact now_of x.1.1 x.1.2 x.2

/-- A stable coefficient set. -/
def coef0 : Coef :=
  ⟨0, 24000, 0, 0, 0, 0, 0, 0, 0, 0, 0, [0, 0, 0, 0], [0, 0], List.replicate 15 0, 1000, 0, 1⟩
/-- A point 1 m in front of the wall. -/
def point0 : Point := ⟨0, 0, 10000⟩
/-- A CPL ring of 16 records. -/
def cplRing : RingDesc := ⟨4096, 4, 8, 32, 0, 0, 0, 0, 1, 0, 0, 0⟩
/-- A device with one command pending. -/
def busy : Dev :=
  { base with
    tags := [(401, { Tag.reset with st := .active, ph := .sched, sender := 3, cmd := some .getSummary, opcode := 0x0101 })] }
/-- A device with a committed image big. -/
def staged : Dev := { base with nvm := { base.nvm with imgB := { base.nvm.imgB with valid := true, committed := true } } }
/-- A device on which PF1's ring 5 runs. -/
def ringDev (type esize : Nat) : Dev :=
  { base with
    rings := [(5, { Ring.reset with type := type, esize := esize, st := .running, owner := 1, log2n := 4, base := 4096 })] }
/-- A frozen device. -/
def frozen : Dev := { base with fz := { base.fz with frozen := true } }

/-! ### Parts of states -/

/-- Lock 31 held by the sideband port. -/
def heldLock : State := { st base with locks := { Locks.reset with owner := [(31, 4)] } }
/-- A notice at offset `64 * p` of `len` bytes. -/
def note (side : Bool) (len : Nat) : Notice :=
  { side := side, ptr := 0, len := len, tag := 7, st := .queued, since := 0, late := false }
/-- A device with one channel. -/
def mbx (n : Nat) (m : Mbx) : Dev := { base with mbxs := [(n, m)] }
/-- The same while the processor restarts. -/
def down (d : Dev) : Dev := { d with sys := { d.sys with ready := false } }
/-- An upstream message. -/
def up0 (again : Bool) : UpMsg := { UpMsg.reset with type := 1, again := again }
/-- A running ring 5 of PF1 with three entries of 8 or more published. -/
def ringR (type : Nat) : Ring :=
  { Ring.reset with type := type, esize := 64, st := .running, owner := 1, log2n := 4, base := 4096, tail := 3 }
/-- A device with ring 5. -/
def ring5 (r : Ring) : Dev := { base with rings := [(5, r)] }
/-- A descriptor of GET_INFO with tag 400 as bytes. -/
def infoBytes : List Byte := [0x00#8, 0x01#8, 0x90#8, 0x01#8] ++ List.replicate 60 0
/-- Tag `n` of PF1 as the device holds it. -/
def tagDev (n : Nat) (t : Tag) (d : Dev) : Dev := { d with tags := [(n, t)] }
/-- Object 3 plays from ring 5. -/
def srcDev (o : Obj) : Dev := { ring5 { ringR 1 with bind := 3, esize := 160 } with objs := [(3, { o with src := 1, bind := 5 })] }
/-- A domain that renders, LOCKED at line-time 0. -/
def running : Dom := { Dom.reset with st := .locked, ltSet := true, outs := true, lpf := 1125, lpfEst := true }
/-- The device with TD0 running. -/
def runs0 : Dev := { base with doms := [(0, running)] }
/-- A scheduled POLICY of tag 400 with its effective sample. -/
def polTag (sc : Nat) : Tag :=
  { Tag.reset with st := .active, ph := .sched, sender := 3, hdr := some (hdr (.policy 1 1 1)), cmd := some (.policy 1 1 1), effs := [(0, sc)] }
/-- A queued record. -/
def rec0 (sev : Nat) : MRec := { MRec.reset with kind := 0x0103, sev := sev }
/-- A device with a Mordant queue. -/
def mdtDev (q : List MRec) (v : Nvm) : Dev := { base with mdt := { base.mdt with queue := q }, nvm := v }
/-- Die 5 and pair 23 as given. -/
def die5 (k : Die) (p : Pair) : Dev := { base with dies := [(5, k)], prs := [(23, p)] }
/-- Channel 46 as given, its domain running. -/
def ch46 (c : Chan) : Dev := { runs0 with chans := [(46, c)] }
/-- A channel that switches. -/
def sw : Chan := { Chan.reset with st := .switching, enabled := true }
/-- Its fault state changed. -/
def swf (f : Flt → Flt) : Chan := { sw with flt := f sw.flt }
/-- A line word of LTL0 at 60 Hz, 1,125 lines, line 0, frame 0, with its CRC. -/
def word0 : Nat :=
  let w := 0b1011 * 2 ^ 60 + 2 * 2 ^ 55 + 1125 * 2 ^ 8
  w + crc8 w
/-- Port 3 as given, TD0 running. -/
def port3 (p : TPort) : Dev := { runs0 with ports := [(3, p)] }
/-- The two-wire port as given. -/
def twDev (w : Tw) : Dev := { base with tw := w }
/-- Channel 46 and its partner bridged. -/
def bridged : Dev := { base with prs := [(23, { Pair.reset with bridged := true })] }
/-- A device with an owner key and a nonce in force. -/
def keyed : Dev := { base with nonce := some (7, 99000000), nvm := { base.nvm with ownerKey := some 5 } }
/-- A device on which a disable of channel 46 has begun. -/
def stopping : Dev :=
  tagDev 401 { Tag.reset with st := .active, ph := .ending, sender := 3, cmd := some (.chEnable (2 ^ 46) 0 0) } runs0
/-- A read under way since reset. -/
def rd0 (stream iova len : Nat) : Rd :=
  { stream := stream, iova := iova, len := len, pos := 0, since := 0, no := 0, got := [], taken := false }
/-- A device whose reads are given. -/
def reads (l : List Rd) (d : Dev) : Dev := { d with trn := { d.trn with reads := l, readNo := l.length } }
/-- A descriptor of POLICY with tag 400 and 8 payload bytes. -/
def polBytes : List Byte :=
  [0x00#8, 0x0B#8, 0x90#8, 0x01#8] ++ List.replicate 20 0 ++ [8#8] ++ List.replicate 39 0
/-- Its payload: die 0, policies 1 and 1. -/
def payBytes : List Byte := [1#8, 1#8, 1#8, 0, 0, 0, 0, 0]

/-! ### The whole block -/

theorem witness_StepRunsFrontCommand :
    ({ st base with pending := [.aspmL1Entry, .sepiaFreeze] } : State).pending = .aspmL1Entry :: [.sepiaFreeze] := rfl

theorem witness_EmptyQueuePassesOneMicrosecond : (st base).pending = [] ∧ base.live = true
    ∧ State.reset.dev.sys.por = false ∧ frozen.fz.frozen = true
    ∧ ({ base with sys := { base.sys with por := true } } : Dev).sys.por = true
    ∧ (let d := { base with sys := { base.sys with perst := true } }
       d.sys.perst = true ∧ d.sys.por = false ∧ d.fz.frozen = false) := by decide

theorem witness_OnlyLockPathsTouchLocks : exec .aspmL1Entry (st frozen) = .next (st frozen)
    ∧ Instr.reachesLocks .aspmL1Entry = false := ⟨rfl, rfl⟩

theorem witness_EveryStepKeepsSoundness : State.reset.Sound ∧ ∃ t, step State.reset = .next t :=
  ⟨⟨rfl, fun n => by simp [Locks.who, State.reset, Locks.reset, Tab.get], by decide, by decide⟩, _, rfl⟩

theorem witness_FreezeStopsEverythingElse : frozen.fz.frozen = true ∧ Instr.actsFrozen .aspmL1Entry = false := by decide

/-! ### Locks -/

theorem witness_LockAccessesFollowTheirOwner : (31 : Nat) < 32 ∧ heldLock.dev.live = true ∧ heldLock.dev.reaches .pf1 = true
    ∧ heldLock.dev.reaches .sideband = true ∧ heldLock.locks.who 0 = 0 ∧ heldLock.locks.who 31 ≠ 0
    ∧ (4 = masterId .sideband ∧ heldLock.locks.who 31 = masterId .sideband)
    ∧ 0x104 = 0x100 + heldLock.locks.who 31
    ∧ ¬(4 = masterId .pf1 ∧ heldLock.locks.who 31 = masterId .pf1) := by decide

theorem witness_ForcedReleaseIsForPf1 : (31 : Nat) < 32 ∧ (4 : Nat) < 256 ∧ heldLock.dev.live = true
    ∧ heldLock.dev.reaches .pf1 = true ∧ heldLock.dev.reaches .pf0 = true ∧ 4 = heldLock.locks.who 31
    ∧ 5 ≠ heldLock.locks.who 31 ∧ Master.pf0 ≠ .pf1 := by decide

/-! ### Mailboxes -/

theorem witness_MailboxNoticesAreQueuedAndTaken :
    (base.onPath .tw = true ∧ pathOwns .tw 62 = true ∧ pathOwns .pf0 63 = true ∧ pathOwns .pf1 0 = true)
    ∧ 16 ≤ ({ Mbx.reset with fifo := List.replicate 16 (note false 64) } : Mbx).dnUsed
    ∧ ({ Mbx.reset with fifo := [note true 64] } : Mbx).sideUsed = true
    ∧ (Mbx.reset.dnUsed < 16 ∧ Mbx.reset.sideUsed = false ∧ Mbx.reset.hwCheck (note false 64) = none
        ∧ Mbx.reset.hwCheck (note true 65536) ≠ none ∧ base.sys.ready = true ∧ (down base).sys.ready = false)
    ∧ (let d := mbx 62 { Mbx.reset with fifo := [note true 64] }
       d.live = true ∧ d.sys.ready = true ∧ (d.mbx 62).takenHead = none ∧ (d.mbx 62).fifo = [note true 64])
    ∧ (let h := hdrOf .sideband 64 64 (bytesOf ([0x00#8, 0x01#8, 0xF0#8, 0x01#8] ++ List.replicate 60 0))
       ownTag 4 h.tag = true ∧ (base.tag h.tag).st = .free)
    ∧ (let d := mbx 8 { Mbx.reset with fifo := [note false 64], cpl := some 5 }
       (d.mbx 8).takenHead = none ∧ (d.ring 5).st ≠ .running ∧ d.sys.recovery = false)
    ∧ (let d := { mbx 8 { Mbx.reset with fifo := [note false 64] } with fns := [(0, { Fn.reset with fenced := true })] }
       (d.mbx 8).cpl = none ∧ (d.fn (mbxFn 8)).fenced = true)
    ∧ (let d := mbx 8 { Mbx.reset with fifo := [note false 64] }
       (d.mbx 8).cpl = none ∧ (d.fn (mbxFn 8)).fenced = false ∧ d.readRoom (0x1200 + 8) = true
         ∧ d.rangeFault (mbxFn 8) 0 64 false = none) := by decide +kernel

theorem witness_MailboxStatusReadsAndTimeouts :
    (Mbx.reset.port false).acks = []
    ∧ (let d := mbx 8 { Mbx.reset with fifo := [note false 64] }
       d.live = true ∧ (d.mbx 8).fifo.any (fun n => n.side = false && (d.mbx 8).overdue d.sys.uptime n) = true)
    ∧ (base.onPath .pf0 = true ∧ pathOwns .pf0 8 = true ∧ base.sys.ready = true ∧ (base.mbx 8).fifo = []) := by decide

theorem witness_WithdrawCancelsQueuedNotices : base.onPath .pf1 = true ∧ pathOwns .pf1 7 = true := by decide

theorem witness_UpstreamNoticesArePostedAndAcknowledged :
    (let d := mbx 0 { Mbx.reset with repost := [(0, up0 true)], upbuf := 4096 }
     d.live = true ∧ d.sys.ready = true ∧ (d.mbx 0).repost = [(0, up0 true)] ∧ 0 ≤ d.sys.uptime ∧ (d.mbx 0).upbuf ≠ 0
       ∧ (d.fn (mbxFn 0)).fenced = false ∧ d.link.up = true ∧ (d.mbx 0).up.length < 16)
    ∧ (mbx 0 { Mbx.reset with repost := [(0, up0 false)] }).mbx 0 = { Mbx.reset with repost := [(0, up0 false)] } ∧ Mbx.reset.upbuf = 0
    ∧ (let d := mbx 0 { Mbx.reset with up := [up0 false] }
       d.onPath .pf1 = true ∧ pathOwns .pf1 0 = true ∧ Path.pf1 ≠ .tw ∧ (d.mbx 0).up = up0 false :: []
       ∧ (up0 false).since + (d.mbx 0).tmoMs * 1000 < d.sys.uptime ∧ (up0 false).counted = false ∧ (up0 true).again = true
       ∧ 7 ≠ (up0 false).tag ∧ 0 = (up0 false).tag) := by decide

/-! ### Rings -/

theorem witness_DoorbellMovesHostIndex :
    (let d := ring5 (ringR 7)
     d.live = true ∧ d.link.up = true ∧ (d.ring 5).owner = 1 ∧ (d.ring 5).st = .running ∧ (d.ring 5).hostProduced = true
       ∧ (16 + 2 ^ 32 - (d.ring 5).head) % 2 ^ 32 ≤ (d.ring 5).size
       ∧ (16 + 2 ^ 32 - (d.ring 5).tail) % 2 ^ 32 ≤ (16 + 2 ^ 32 - (d.ring 5).head) % 2 ^ 32)
    ∧ (let d := ring5 (ringR 8)
       (d.ring 5).hostProduced = false ∧ (3 + 2 ^ 32 - (d.ring 5).head) % 2 ^ 32 ≤ ((d.ring 5).tail + 2 ^ 32 - (d.ring 5).head) % 2 ^ 32)
    ∧ ¬((base.ring 4095).owner = 1) := by decide

theorem witness_CommandRingsFetchFailAndDrain :
    (let d := ring5 (ringR 7)
     d.live = true ∧ d.sys.ready = true ∧ d.sys.recovery = false ∧ d.cmdWork 5 = true ∧ d.cmdTurn 5 = true
       ∧ (d.ring 5).st = .running ∧ d.rangeFault (d.ring 5).owner ((d.ring 5).slotAddr (d.ring 5).head) 16 false = none
       ∧ d.lookFault (d.ring 5).owner (d.ring 5).idxAddr true = none ∧ d.rangeFault (d.ring 5).owner 0 64 false = none)
    ∧ (let b := bytesOf (List.replicate 16 0)
       fld b 0 8 % 64 = 0 ∧ fld b 0 8 < 2 ^ 38 ∧ fld b 8 8 = 0)
    ∧ ¬(fld (bytesOf (List.replicate 16 1)) 0 8 % 64 = 0)
    ∧ (let d := { ring5 { ringR 7 with st := .draining, endTag := some 400, head := 3 } with
          tags := [(400, { Tag.reset with st := .active, ph := .ending, cmd := some (.ringDestroy 5) })] }
       d.drained 5 = true ∧ (d.ring 5).endTag = some 400 ∧ (d.ring 5).hostProduced = true ∧ (d.tag 400).st = .active
         ∧ (d.tag 400).drop = false ∧ (d.tag 400).outQ = [] ∧ (d.tag 400).rstatus = OK ∧ (d.ring 5).timeouts < 2 ^ 32
         ∧ (d.ring 5).left < 2 ^ 32) := by decide +kernel

theorem witness_AcceptedDescriptorRunsItsCommand :
    (let raw : Raw := { via := .ring 5, len := 64, reply := 0, tag := none, bytes := infoBytes }
     let h := hdrOf raw.via raw.len raw.reply (bytesOf raw.bytes)
     let d := { ring5 (ringR 7) with fetched := [raw] }
     let e := { d with fetched := [] }
     let y := e.takeTag h 0x100
     d.live = true ∧ d.sys.ready = true ∧ d.fetched = raw :: [] ∧ raw.tag = none ∧ Via.inline raw.via = false
       ∧ ownTag (d.senderOf h.via) h.tag = true ∧ (d.tag h.tag).st = .free ∧ y.draining h.via = none ∧ y.early h 0x100 = none
       ∧ h.plen = 0 ∧ fld (bytesOf raw.bytes) 0 2 = 0x100 ∧ countOk 0x100 0 (fld (bytesOf []) 0 2) = true
       ∧ cmdOf 0x100 (bytesOf []) = some (.getInfo, 0) ∧ Instr.ramcen (.getInfo h) = some (h, .getInfo)
       ∧ 0x100 = Cmd.op .getInfo ∧ d.arrives h.via = true)
    ∧ (let body := payBytes
       let raw : Raw := { via := .ring 5, len := 64, reply := 0, tag := none, bytes := polBytes }
       let h := hdrOf raw.via raw.len raw.reply (bytesOf raw.bytes)
       let d := { ring5 (ringR 7) with fetched := [raw] }
       let y := ({ d with fetched := [] } : Dev).takeTag h 0xB00
       y.early h 0xB00 = none ∧ h.plen = 8 ∧ y.streamFenced (0x1000 + h.tag) = false
         ∧ y.rangeFault (y.streamDom (0x1000 + h.tag)) h.payload h.plen false = none
         ∧ countOk 0xB00 h.plen (fld (bytesOf (body.take h.plen)) 0 2) = true
         ∧ cmdOf 0xB00 (bytesOf (body.take h.plen)) = some (.policy 1 1 1, 0))
    ∧ (let raw : Raw := { via := .mbx 0, len := 64, reply := 0, tag := some 400, bytes := infoBytes }
       let h := hdrOf raw.via raw.len raw.reply (bytesOf raw.bytes)
       let d := { base.takeTag h 0x100 with fetched := [raw] }
       let e := { d with fetched := [] }
       Via.inline raw.via = true ∧ e.unread h = true ∧ (e.tag h.tag).opcode = 0x100 ∧ e.draining h.via = none
         ∧ e.early h 0x100 = none ∧ countOk 0x100 h.plen 0 = true
         ∧ cmdOf 0x100 (bytesOf ((raw.bytes.drop 64).take h.plen)) = some (.getInfo, 0)) := by decide +kernel

theorem witness_RecordsLeaveInTheirOrder :
    (base.live = true ∧ base.sys.ready = true ∧ (base.tag 400).st ≠ .done)
    ∧ (let d := tagDev 496 { Tag.reset with st := .done, side := true, sender := 4, reply := 64 } base
       (d.tag 496).st = .done ∧ (d.tag 496).side = true)
    ∧ (let d := tagDev 400 { Tag.reset with st := .done, ring := some 5, sender := 3 } (ring5 (ringR 8))
       (d.tag 400).st = .done ∧ (d.tag 400).side = false ∧ (d.tag 400).ring = some 5 ∧ d.cplReady 5 = true
         ∧ d.putFault 5 [((d.ring 5).slotAddr (d.ring 5).tail, 32)] = none)
    ∧ (let d := tagDev 400 { Tag.reset with st := .done, ring := some 5, sender := 3 } (ring5 { ringR 8 with tail := 16 })
       d.cplReady 5 = false)
    ∧ (let d := tagDev 400 { Tag.reset with st := .done, sender := 3 } base
       (d.tag 400).ring = none ∧ d.stalled (0x1000 + 400) = false ∧ d.link.up = true ∧ (d.fn (fnOf 3)).fenced = false
         ∧ d.rangeFault (fnOf 3) 0 32 true = none)
    ∧ (let x : Tless := { Tless.reset with fn := 1 }
       x.ring = none ∧ x.side = false ∧ ({ base with tless := [x, x] } : Dev).tless = x :: [x])
    ∧ (let d := tagDev 400 { Tag.reset with st := .held, ring := some 5, sender := 3, heldRec := true } (ring5 (ringR 8))
       d.ringOpen 5 = true ∧ d.stalled 5 = false ∧ (d.ring 5).type = 8 ∧ (d.ring 5).room = true ∧ d.heldOf 5 = 400 :: [])
    ∧ (let d := { ring5 (ringR 9) with fns := [(1, { Fn.reset with held := [⟨0x0103, 0, 1, 0, 0, 0, 0, 1⟩] })] }
       d.ringOpen 5 = true ∧ (d.ring 5).type = 9 ∧ (d.ring 5).room = true ∧ d.firstRing (d.ring 5).owner 9 = some 5
         ∧ d.putFault 5 [((d.ring 5).slotAddr (d.ring 5).tail, 32)] = none ∧ (d.fn (d.ring 5).owner).held ≠ [])
    ∧ (let d := ring5 { ringR 10 with staged := [List.replicate 64 0] }
       d.ringOpen 5 = true ∧ (d.ring 5).type ≠ 8 ∧ (d.ring 5).type ≠ 9 ∧ (d.ring 5).hostProduced = false
         ∧ (d.ring 5).fits (List.replicate 64 0) = true ∧ d.putFault 5 ((d.ring 5).recAt (List.replicate 64 0)) = none) := by
  decide +kernel

theorem witness_SourceEntryIsStagedOrPassed :
    (let d := reads [rd0 5 4096 160] (srcDev Obj.reset)
     d.live = true ∧ d.link.up = true ∧ (d.ring 5).st = .running ∧ (d.ring 5).type = 1 ∧ d.trn.under 5 4096 160 = some (rd0 5 4096 160)
       ∧ d.trn.readsOf 5 = rd0 5 4096 160 :: [] ∧ (d.obj 3).lastSc = none ∧ d.timedOut (rd0 5 4096 160) = true)
    ∧ (let x := bytesOf (List.replicate 160 0)
       fld x 0 8 % 32 = 0 ∧ fld x 8 4 ≤ 3 ∧ fld x 16 16 = 0 ∧ ¬(fld x 0 8 < ((srcDev Obj.reset).dom 0).nextBlk)
         ∧ fld x 0 8 < (({ srcDev Obj.reset with doms := [(0, { Dom.reset with nextBlk := 32 })] } : Dev).dom 0).nextBlk)
    ∧ 3 < fld (bytesOf (List.replicate 160 1)) 8 4
    ∧ (base.trn.under 5 4096 160 = none ∧ base.streamFenced 5 = false ∧ base.trn.under 0x1300 0 4096 = none ∧ base.streamFenced 0x1300 = false)
    ∧ (let d := { ring5 { ringR 1 with bind := 3, esize := 160, barred := [1] } with
         objs := [(3, { Obj.reset with src := 1, bind := 5 })], doms := [(0, running)] }
       (d.ring 5).type = 1 ∧ d.ringOpen 5 = true ∧ d.stalled 5 = false ∧ (d.dom (d.ring 5).domain).st ≠ .disabled
         ∧ d.readRoom 5 = true ∧ d.trn.readsOf 5 = [] ∧ d.nextRead 5 = some (4096, 160, 0)
         ∧ (d.ring 5).barredAt 4096 160 = true) := by decide +kernel

theorem witness_StampedEffectWaitsForItsBlock : ∀ sc, sc = 0 ∨ sc = 3200 →
    (let d := tagDev 400 (polTag sc) runs0
     d.live = true ∧ d.sys.ready = true ∧ d.tag 400 = polTag sc ∧ (polTag sc).st = .active ∧ (polTag sc).ph = .sched
       ∧ (polTag sc).hdr = some (hdr (.policy 1 1 1)) ∧ (polTag sc).cmd = some (.policy 1 1 1)
       ∧ (polTag sc).effs = [(d.tb.master, sc)] ∧ (polTag sc).done = [] ∧ (polTag sc).waits = 0 ∧ (polTag sc).ctxs = []
       ∧ (polTag sc).drop = false ∧ (polTag sc).lockWait = false ∧ (polTag sc).outQ = [] ∧ (polTag sc).rstatus = OK
       ∧ d.tb.master < 4 ∧ d.renders d.tb.master = true ∧ (∀ e ∈ d.tags, e.1 ≠ 400 → e.2.st ≠ .active)
       ∧ (∀ x, x < 4 → (d.stream x).en = false ∧ (d.stream x).shadowFor = none)
       ∧ ((d.dom d.tb.master).nextBlk < (d.dom (d.clk d.tb.master)).ceilBlk 3200)
       ∧ (d.dom (d.clk d.tb.master)).ceilBlk 0 ≤ (d.dom d.tb.master).nextBlk) := by
  rintro sc (rfl | rfl) <;> decide +kernel

/-! ### Translation -/

/-- Ring 5 stalled since reset. -/
def stalled5 (type : Nat) : Dev :=
  { ring5 { ringR type with st := .stalled } with
    trn := { base.trn with stalls := [{ stream := 5, fn := 1, dom := 1, iova := 0x5000, len := 64, write := false, since := 0 }] }
    fns := [(1, { Fn.reset with trnEn := true })] }

theorem witness_StalledStreamsAreResumed :
    (let d := { ring5 (ringR 1) with fns := [(1, { Fn.reset with trnEn := true })] }
     d.live = true ∧ d.link.up = true ∧ (d.ring 5).st = .running ∧ d.stalled 5 = false ∧ d.streamFenced 5 = false
       ∧ (d.ring 5).barredAt 0x5000 64 = false ∧ ({ d.ring 5 with barred := [5] } : Ring).barredAt 0x5000 64 = true
       ∧ d.translate (d.ring 5).owner 0x5000 false [] = .fault 5 0 true
       ∧ d.translate (d.ring 5).owner 0x5000 false [3, 3, 7] = .hit 7 2 ∧ d.firstRing 1 11 = none)
    ∧ base.stallOf 1 5 = none
    ∧ ((stalled5 1).stallOf 1 5 = some { stream := 5, fn := 1, dom := 1, iova := 0x5000, len := 64, write := false, since := 0 }
        ∧ ((stalled5 1).ring 5).st = .stalled
        ∧ (stalled5 1).translate 1 0x5000 false [3, 3, 7] = .hit 7 2 ∧ (stalled5 1).translate 1 0x5000 false [] = .fault 5 0 true) := by
  decide +kernel

theorem witness_AbortEndsStallAsStreamKindSays :
    (base.live = true ∧ base.link.up = true ∧ base.stallOf 1 5 = none)
    ∧ (∃ x, (stalled5 1).stallOf 1 5 = some x ∧ ((stalled5 1).ring 5).st = .stalled ∧ ((stalled5 1).ring 5).type = 1
        ∧ (stalled5 1).trn.stalls.find? (fun e => e.stream = 5) = some x
        ∧ x.since + ((stalled5 1).fn x.fn).stallUs ≤ (stalled5 1).sys.uptime ∧ (stalled5 1).firstRing x.fn 11 = none)
    ∧ (∃ x, (stalled5 7).stallOf 1 5 = some x ∧ ((stalled5 7).ring 5).type ≠ 1 ∧ ((stalled5 7).ring 5).type = 7)
    ∧ (∀ t, t = TagSt.active ∨ t = TagSt.done →
        let d := tagDev 400 { Tag.reset with st := t, sender := 3 }
          { base with trn := { base.trn with stalls := [{ stream := 0x1190, fn := 1, dom := 1, iova := 0, len := 64, write := false, since := 0 }] } }
        (d.stallOf 1 0x1190).isSome = true ∧ (d.trn.stalls.find? (fun e => e.stream = 0x1190)).isSome = true
          ∧ 0x1190 = 0x1000 + 400 ∧ (d.tag 400).st = t ∧ (d.tag 400).drop = false) := by
  refine ⟨by decide, ⟨_, rfl, by decide, by decide, rfl, by decide, by decide⟩, ⟨_, rfl, by decide, by decide⟩, ?_⟩
  rintro t (rfl | rfl) <;> decide

theorem witness_InvalidationsAndRootsDropTranslations :
    (base.live = true ∧ base.link.up = true ∧ (base.fn 1).invQ.length < 8)
    ∧ (let q := List.replicate 8 ({ scope := 3, seq := 1, page := 0, upto := 0 } : Inv)
       let d := { base with fns := [(1, { Fn.reset with invQ := q, rootLow := some 4096 })] }
       8 ≤ (d.fn 1).invQ.length ∧ (d.fn 1).invQ = { scope := 3, seq := 1, page := 0, upto := 0 } :: List.replicate 7 { scope := 3, seq := 1, page := 0, upto := 0 }
         ∧ d.invWaits 1 { scope := 3, seq := 1, page := 0, upto := 0 } = false ∧ (d.fn 1).rootLow = some 4096) := by decide

/-! ### Link, functions, registers -/

theorem witness_FunctionAndLinkResetsReturnState :
    base.live = true ∧ base.link.up = true ∧ ((ring5 (ringR 7)).ring 5).owner = 1 ∧ ((ring5 (ringR 7)).ring 5).st ≠ .disabled := by
  decide

theorem witness_LinkTrainingAndUnmaskingSignal : base.live = true ∧ base.link.up = true
    ∧ base.isoRuns = false ∧ base.trn.reads = [] ∧ base.link.lastReq + 10 ≤ base.sys.uptime ∧ (ring5 (ringR 1)).isoRuns = true
    ∧ (let d := { base with fns := [(1, { Fn.reset with msixEn := true, pba := 2 ^ 127 })] }
       (d.fn 1).msixEn = true ∧ (d.fn 1).pba = 2 ^ 127 ∧ (d.fn 1).fmask = false)
    ∧ (let d := { base with fns := [(1, { Fn.reset with msixEn := true, fmask := true, pba := 2 ^ 127 })] }
       (d.fn 1).fmask = true ∧ (d.fn 1).pba = 2 ^ 127) ∧ (base.fn 0).pba = 0 := by decide

theorem witness_SramErrorsActOnTheirStore : base.live = true
    ∧ (({ base with objs := [(255, { Obj.reset with src := 1 })] } : Dev).obj 255).src ≠ 0
    ∧ ((tagDev 511 { Tag.reset with st := .active, cmd := some .getSummary } base).tag 511).cmd.isSome = true
    ∧ ((ring5 (ringR 7)).ring 5).st = .running ∧ ((stalled5 7).ring 5).st = .stalled
    ∧ ((ring5 { ringR 7 with st := .draining }).ring 5).st = .draining := by decide

theorem witness_RegisterReadsAnswerClearAndLatch : base.serves .pf0 = true ∧ base.serves .tw = true ∧ base.fz.frozen = false
    ∧ base.sys.por = false ∧ (∀ k, k < 6 → ((base.path 0).latch[k]?).getD none = none) := by decide

theorem witness_RegisterWritesSetAndSignal : base.serves .pf1 = true ∧ base.live = true ∧ Path.pf1 ≠ .tw ∧ base.serves .tw = true
    ∧ base.serves .pf0 = true
    ∧ Master.pf1 = (match Path.pf1 with | .pf0 => Master.pf0 | .pf1 => Master.pf1 | .tw => Master.sideband) ∧ base.link.up = true := by
  decide

/-! ### Mordant and freeze -/

theorem witness_MordantWritesAndSuppresses :
    (let d := mdtDev [rec0 1, rec0 2] base.nvm
     d.live = true ∧ d.sys.mramOff = false ∧ d.mdt.queue = rec0 1 :: [rec0 2] ∧ (rec0 1).sev % 4 < 2 ∧ 2 ≤ (rec0 2).sev % 4
       ∧ d.nvm.ff.length < 1024 ∧ d.fz.frozen = false ∧ d.mdt.queue.length < 16 ∧ d.mdt.sup = [])
    ∧ 16 ≤ (mdtDev (List.replicate 16 (rec0 1)) base.nvm).mdt.queue.length
    ∧ (let d := { base with mdt := { base.mdt with
          sup := [{ Sup.reset with kind := 0x0103, subject := 1, times := List.replicate 10 99999999, supp := 1, lastAt := 99000000 }] } }
       (∃ p, d.mdt.sup.find? (fun q => q.kind = 0x0103 && q.subject = 1) = some p ∧ p.supp ≠ 0 ∧ p.lastAt + 1000000 ≤ d.sys.uptime
          ∧ 10 ≤ (p.times.filter (fun t => decide (d.sys.uptime < t + 1000000))).length)
        ∧ d.mdt.queue.length < 16 ∧ ∀ q ∈ d.mdt.sup, q.kind ≠ 0x0F09) := by
  refine ⟨by decide, by decide, ⟨_, rfl, by decide, by decide, by decide⟩, by decide, by decide⟩

theorem witness_MordantWritesAndSuppresses_full : 1024 ≤ (mdtDev [rec0 2]
    { base.nvm with ff := (List.range 1024).map (fun k => (k, rec0 2)) }).nvm.ff.length := by simp [mdtDev]

theorem witness_MordantSupplyClearAndWindow :
    (base.fz.frozen = false ∧ base.sys.por = false ∧ base.sys.v3Low = none ∧ base.mdtPath .tw = true ∧ base.mdtPath .pf1 = true)
    ∧ (let d := { base with sys := { base.sys with v3Low := some 99999990 } }
       d.sys.v3Low = some 99999990 ∧ d.sys.uptime < 99999990 + 100)
    ∧ (let d := mdtDev [] { base.nvm with clearing := some (3, 0, none) }
       d.live = true ∧ d.sys.mramOff = false ∧ d.nvm.clearing = some (3, 0, none) ∧ bit 3 0 = true ∧ bit 3 1 = true ∧ bit 1 1 = false
         ∧ bit 2 0 = false)
    ∧ (({ base with paths := [(1, { PathR.reset with wbusy := true })] } : Dev).path (pathNo .pf1)).wbusy = true := by decide

theorem witness_FreezeTriggersStopTheDevice : base.live = true ∧ base.sys.mramOff = false
    ∧ 1000 ≤ base.sys.uptime - base.sys.relAt
    ∧ (let d := { base with fz := { base.fz with armedAt := some 99995000 } }
       d.live = true ∧ d.fz.armedAt = some 99995000 ∧ d.sys.uptime < 99995000 + 10000)
    ∧ (let d := { base with fz := { base.fz with armedAt := some 0 } }
       d.fz.armedAt = some 0 ∧ 0 + 10000 ≤ d.sys.uptime) := by decide

theorem witness_TapReadsThawsAndReleases : frozen.sys.por = false ∧ frozen.fz.frozen = true ∧ frozen.sys.perst = false
    ∧ frozen.nvm.ownerKey = none ∧ base.fz.frozen = false ∧ base.live = true
    ∧ ({ frozen with nvm := { frozen.nvm with ownerKey := some 5 } } : Dev).nvm.ownerKey.isSome = true := by decide

/-! ### Emergency mute, holds and faults -/

theorem witness_EmergencySourcesActAtOnce : base.live = true ∧ base.onPath .pf1 = true ∧ base.onPath .tw = true
    ∧ base.link.up = true ∧ base.emg.verm = false ∧ ({ base.emg with verm := true } : Emg).verm = true
    ∧ ({ base.emg with mute := bit 3 0, hard := bit 3 1, ramp := bits 3 25 16 } : Emg).hardOn = true
    ∧ ({ base.emg with mute := bit 3 0, hard := bit 3 1, ramp := bits 3 25 16 } : Emg).any ≠ base.emg.any := by decide

theorem witness_DieAndPairHoldsStopAndResume : base.live = true ∧ plausible 1601 = true ∧ (base.pr 23).tripped = false
    ∧ ((die5 { Die.reset with thermal := true } Pair.reset).die 5).thermal = true ∧ plausible 1299 = true ∧ plausible 2001 = false
    ∧ (base.pr 23).sensor = false
    ∧ (let p := (die5 Die.reset { Pair.reset with sensor := true, okAt := some 99000000 }).pr 23
       p.sensor = true ∧ p.okAt = some 99000000 ∧ 99000000 + 1000000 ≤ base.sys.uptime)
    ∧ (let p := (die5 Die.reset { Pair.reset with sensor := true }).pr 23
       p.sensor = true ∧ p.okAt = none)
    ∧ (base.die 5).pvdd = false ∧ ((die5 { Die.reset with pvdd := true, iso := true } Pair.reset).die 5).pvdd = true
    ∧ (base.die 5).iso = false ∧ ((die5 { Die.reset with pvdd := true, iso := true } Pair.reset).die 5).iso = true := by decide

theorem witness_TripsAndStageFaultsShutDown : (ch46 sw).live = true ∧ sw.st.on = true
    ∧ (let t : Trip := { Trip.reset with cyc := 8 }
       (([t].head?).map (·.cyc) = some 8 ∧ ([t].head?).map (·.cyc) ≠ some 9 ∧ ([t].head?).map (·.cyc + 1) = some 9))
    ∧ (let f := (swf (fun f => { f with cons := 255 })).flt
       f.probe = 0 ∧ f.ncons ≤ f.cons)
    ∧ (let f := (swf (fun f => { f with dcAt := some 0 })).flt
       f.dcAt = some 0 ∧ 0 + 1000 * f.tdc ≤ base.sys.uptime)
    ∧ (let d := ch46 { Chan.reset with st := .retry, flt := { Flt.reset with retryAt := some 0 } }
       (d.chan 46).st = .retry ∧ (d.chan 46).flt.retryAt = some 0 ∧ 0 ≤ d.sys.uptime
         ∧ (d.die (dieOf 46)).oc ≠ 1 ∧ d.held 46 = false ∧ d.emg.any = false
         ∧ ({ d.die 5 with oc := 1 } : Die).oc = 1)
    ∧ (let d := { ch46 { Chan.reset with st := .retry, flt := { Flt.reset with retryAt := some 0 } } with
          emg := { base.emg with mute := true } }
       d.emg.any = true ∧ (d.die (dieOf 46)).oc ≠ 1)
    ∧ (let c := (swf (fun f => { f with probe := 2 }))
       c.flt.probe = 2 ∧ c.flt.probeTrips = [] ∧ c.since + 2000 ≤ base.sys.uptime)
    ∧ (let c := (swf (fun f => { f with probe := 1, probeTrips := [Trip.reset] }))
       c.flt.probe = 1 ∧ c.flt.probeTrips ≠ [])
    ∧ (let c := (swf (fun f => { f with cleanAt := some 0 }))
       c.st = .switching ∧ c.flt.cleanAt = some 0 ∧ 0 + 10000000 ≤ base.sys.uptime)
    ∧ (let w := (true :: List.replicate 16 true).take 16
       4 ≤ (w.filter (· = true)).length ∧ ((false :: List.replicate 3 true).filter (· = true)).length < 4
         ∧ (0 : Int).natAbs ≤ 4 * sw.flt.edgewin ∧ 4 * sw.flt.edgewin < (4 * (sw.flt.edgewin : Int) + 1).natAbs)
    ∧ (8 ≤ ({ sw.loop with ovI := 8 } : Loop).ovI ∧ ({ sw.loop with shareAt := some 0 } : Loop).shareAt = some 0 ∧ 46 = 2 * 23
        ∧ 0 + 10000 ≤ base.sys.uptime)
    ∧ (let c : Chan := { sw with prot := { sw.prot with winBlk := 32 } }
       32 ≤ c.prot.winBlk ∧ bit c.prot.const.flags 1 = false) := by decide +kernel

/-! ### The loop and the sequences -/

theorem witness_LoopUpdatesAndCorruptFrames : (ch46 sw).live = true ∧ (ch46 sw).engines = true ∧ ((ch46 sw).chan 46).st.on = true
    ∧ (ch46 sw).isPartner 46 = false ∧ ((ch46 sw).chan 46).st = .switching ∧ ({ sw with st := .softStart } : Chan).st.on = true
    ∧ sw.flt.probe ≠ 2 ∧ ({ sw with st := .identify } : Chan).st.on = true
    ∧ chirpLen ≤ ({ sw.loop with idN := chirpLen } : Loop).idN ∧ sw.loop.carClk + 800 < base.period
    ∧ ({ sw with loop := { sw.loop with holdInt := true } } : Chan).loop.holdInt = true := by decide +kernel

theorem witness_ChannelSequencesAndDisablesEnd :
    (let d := ch46 { sw with st := .softStart }
     d.live = true ∧ (d.chan 46).st = .softStart ∧ (d.chan 46).since + 10000 ≤ d.sys.uptime ∧ (d.chan 46).flt.probe = 0
       ∧ (d.chan 46).firstId = true)
    ∧ (swf (fun f => { f with probe := 1 })).flt.probe = 1 ∧ ({ sw with firstId := false } : Chan).firstId = false
    ∧ (let d := ch46 { sw with st := .identify }
       (d.chan 46).st = .identify ∧ (d.chan 46).since + 20000 ≤ d.sys.uptime ∧ d.sys.ready = true
         ∧ (25000 ≤ 60000 ∧ 60000 ≤ 150000 ∧ ((60000 : Nat) : Rat) < 1228800000 / (d.period : Rat) / 4 ∧ 30 ≤ 181 ∧ 181 ≤ 500))
    ∧ (let d := ch46 { sw with st := .softStop }
       (d.chan 46).st = .softStop ∧ (d.chan 46).since + 10000 ≤ d.sys.uptime)
    ∧ (let d := tagDev 400 { Tag.reset with st := .active, ph := .ending, cmd := some (.chEnable (2 ^ 46) 0 0) }
          (ch46 { sw with stop := .wait, stopTags := [400] })
       (d.chan 46).stop = .wait ∧ (d.chan 46).waitAt + 1000 * (d.chan 46).zcto ≤ d.sys.uptime ∧ (d.chan 46).stopTags = [400])
    ∧ (let d := tagDev 400 { Tag.reset with st := .active, ph := .ending, cmd := some (.chEnable (2 ^ 46) 0 0) }
          (ch46 { sw with stop := .ramp, stopTags := [400] })
       (d.chan 46).stop = .ramp ∧ d.isPartner 46 = false ∧ (if d.ownStop 46 then (d.chan 46).drive.still else (d.chan 46).aux.still) = true)
    ∧ (let d := { runs0 with objs := [(255, { Obj.reset with src := 1, wait := some 0 })] }
       (d.obj 255).wait = some 0 ∧ 0 + 1000 * d.objZcto 255 ≤ d.sys.uptime)
    ∧ (let p := (TPort.reset.setGate 63 { Gate.reset with st := .waitIn, limit := 10 })
       (Tab.get Gate.reset p.rgates 63).st ≠ .waitOut ∧ (p.gate 63).st = .waitIn
         ∧ (p.gate 63).since + 1000 * (p.gate 63).limit ≤ base.sys.uptime
         ∧ ((TPort.reset.setGate 63 { Gate.reset with st := .waitOut }).gate 63).st = .waitOut)
    ∧ (let d := tagDev 400 { Tag.reset with st := .active, ph := .ending, cmd := some (.portEnable 3 0 0xFFFF 0xFFFF) }
          { runs0 with ports := [(3, { TPort.reset with st := .unlocked, en := true, endTag := some 400 })] }
       (d.port 3).endTag = some 400 ∧ (d.port 3).st = .unlocked ∧ (d.tag 400).st = .active ∧ (d.tag 400).drop = false
         ∧ (d.tag 400).outQ = [] ∧ d.trn.reads = []) := by
  decide +kernel

/-! ### Blocks, timebase, scenes -/

theorem witness_BlockPeriodsRenderAndReport :
    (runs0.live = true ∧ [0].Nodup ∧ (∀ r ∈ [0], r < 4 ∧ runs0.renders r = true) ∧ runs0.tags = [] ∧ runs0.streams = []
      ∧ ∀ r, r < 4 → (runs0.dom r).dis = none ∧ (runs0.dom r).lpresNext = none ∧ (runs0.dom r).anchorAt = none)
    ∧ (base.rend.shortAt + 1000000 ≤ base.sys.uptime ∧ base.rend.carriedMax = 0
        ∧ base.sys.uptime < ({ base.rend with shortAt := 99500000 } : Rend).shortAt + 1000000
        ∧ ({ base.rend with carriedMax := 1 } : Rend).carriedMax ≠ 0)
    ∧ (let h := { hdr .getSummary with out := 64, outlen := 98304 }
       let t : Tag := { Tag.reset with st := .active, ph := .sched, hdr := some h, cmd := some .getSummary, sender := 3 }
       let d := tagDev 400 t base
       d.live = true ∧ d.sys.ready = true ∧ d.tags = [(400, t)] ∧ t.effs = [] ∧ t.ctxs = [] ∧ t.outQ = [] ∧ t.fin = none
         ∧ t.endLt = none ∧ t.drop = false ∧ t.cancelAt = false ∧ h.outlen ≠ 0 ∧ h.out % 64 = 0 ∧ h.out + 98304 ≤ 2 ^ 38
         ∧ (d.fn (fnOf t.sender)).fenced = false ∧ (d.fn (fnOf t.sender)).trnEn = false ∧ d.stalled (0x1000 + 400) = false
         ∧ ∀ r, r < 4 → (d.dom r).dis = none ∧ (d.dom r).anchorAt = none) := by decide +kernel

theorem witness_TimebaseFollowsWordsTimersAndPair :
    (runs0.live = true ∧ (runs0.dom 0).st ≠ .disabled ∧ bits word0 63 60 = 11 ∧ crc8 word0 = word0 % 256 ∧ bits word0 59 58 = 0
      ∧ bits (word0 + 1) 63 60 = 11 ∧ crc8 (word0 + 1) ≠ (word0 + 1) % 256 ∧ bits word0 57 55 = (runs0.dom 0).rate
      ∧ bits word0 57 55 ≠ ({ running with rate := 3 } : Dom).rate
      ∧ (runs0.dom 0).badWord (runs0.predFrame 0 0 100000000000) 0 word0 true = none
      ∧ runs0.tb.pair = false ∧ (runs0.dom 0).ltSet = true ∧ (runs0.dom 0).failover = false ∧ ∀ k, (runs0.dom k).anchorAt = none)
    ∧ (((running.lastSeqAt : Nat) : Rat) + running.fourLines ≤ ((base.sys.uptime : Nat) : Rat) ∧ running.st = .locked)
    ∧ (let m := { running with st := .acquire, acqAt := some 0, lockAt := some 0 }
       m.st = .acquire ∧ m.ltSet = true ∧ ((m.lastValidAt : Nat) : Rat) + m.fourLines ≤ ((base.sys.uptime : Nat) : Rat)
         ∧ m.acqAt = some 0 ∧ m.lockAt = some 0 ∧ 0 + 1000 * max m.holdLim 1000 ≤ base.sys.uptime)
    ∧ (let m := { running with st := .holdover, holdAt := some 0 }
       m.st = .holdover ∧ m.holdAt = some 0 ∧ 0 + 1000 * m.holdLim ≤ base.sys.uptime)
    ∧ (let d := { base with doms := [(0, { running with failover := true, backAt := some 0, backLast := 100000000 }), (1, { running with mis := true, misAt := some 0 })],
                            tb := { base.tb with pair := true } }
       0 + 1000000 ≤ d.sys.uptime ∧ (d.dom 0).failover = true ∧ (d.dom 0).backAt = some 0
         ∧ ((d.sys.uptime : Nat) : Rat) ≤ (((d.dom 0).backLast : Nat) : Rat) + (d.dom 0).fourLines ∧ d.tb.pair = true
         ∧ (d.dom 1).mis = true ∧ (d.dom 1).misAt = some 0 ∧ 0 / 1000000 < d.sys.uptime / 1000000) := by
  refine ⟨⟨by decide +kernel, by decide +kernel, by decide +kernel, by decide +kernel, by decide +kernel, by decide +kernel,
    by decide +kernel, by decide +kernel, by decide +kernel, by decide +kernel, by decide +kernel, by decide +kernel,
    by decide +kernel, fun k => ?_⟩, by decide +kernel, by decide +kernel, by decide +kernel, by decide +kernel⟩
  by_cases h : k = 0 <;> simp [runs0, Dev.dom, Tab.get, h, running, Dom.reset, Ne.symm]

/-- Word 0 at its own time is in sequence; one a line away is not. -/
theorem witness_TimebaseFollowsWordsTimersAndPair_near :
    (let x : Word := { frame := running.frameOf (runs0.predFrame 0 0 100000000000) false 0 0, line := 0, lpf := 1125, ns := 100000000000 }
     (runs0.phaseErr 0 x false 0).2 = true ∧ absQ (running.predErr (runs0.phaseErr 0 x false 0).1) ≤ 2000)
    ∧ (let x : Word := { frame := running.frameOf (runs0.predFrame 0 9 100000000000) false 0 9, line := 9, lpf := 1125, ns := 100000000000 }
       ¬((runs0.phaseErr 0 x false 0).2 = true ∧ absQ (running.predErr (runs0.phaseErr 0 x false 0).1) ≤ 2000)) := by decide +kernel

theorem witness_DsyncEdgeResetsEveryChain : base.live = true ∧ base.tb.dsyncAt = none
    ∧ (let d := { base with tb := { base.tb with dsyncAt := some 99999500 } }
       ¬(99999500 + 1000 ≤ d.sys.uptime) ∧ d.tb.dsyncAt = some 99999500) := by decide

/-! ### Scenes -/

/-- Stream 0 on ring 5 with what is in staging. -/
def scene (s : Stream) (l : List (List Nat)) : Dev :=
  { runs0 with
    rings := [(5, { ringR 3 with esize := 128, staged := l })]
    streams := [(0, { s with en := true, p := 4, ring := some 5 })] }
/-- An update frame for frame `f` with the record given. -/
def frame (f count : Nat) (a : List Nat) : List Nat :=
  le 4 f ++ le 2 0 ++ [0, 4] ++ le 2 count ++ le 2 a.length ++ List.replicate 52 0 ++ a
/-- An anchor of an object at the origin. -/
def anchor (o : Nat) : List Nat := [1, o] ++ List.replicate 14 0

theorem witness_SceneFramesFillAndSwitchBanks :
    (let d := scene { Stream.reset with expect := 9 } [frame 9 0 [], []]
     d.live = true ∧ d.sys.ready = true ∧ (d.dom (d.clk 0)).ltSet = true ∧ d.sceneRing 0 = some 5
       ∧ (d.ring 5).staged = frame 9 0 [] :: [[]] ∧ d.pastStaging 0 = false ∧ d.frameStaged 0 = true
       ∧ fld (frame 9 0 []) 0 4 = (d.stream 0).expect ∧ (d.stream 0).shadowFor = none ∧ fld (frame 9 0 []) 8 2 = 0
       ∧ d.badFrame 0 (d.pAt 0 (d.appBlk 0 9)) (frame 9 0 []) = false ∧ d.lateFrame 0 9 = false
       ∧ d.badFrame 0 (d.pAt 0 (d.appBlk 0 9)) (List.replicate 128 0) = true
       ∧ d.badFrame 0 (d.pAt 0 (d.appBlk 0 8)) (frame 8 0 []) = false ∧ d.lateFrame 0 8 = true
       ∧ d.badFrame 0 (d.pAt 0 (d.appBlk 0 10)) (frame 10 0 []) = false ∧ d.lateFrame 0 10 = false ∧ 10 ≠ (d.stream 0).expect)
    ∧ (let d := { scene { Stream.reset with expect := 9 } [] with
          objs := [(1, { Obj.reset with dom := 1 }), (2, { Obj.reset with cur := some { gen := 7, x := 1, y := 2, z := 3 } })] }
       let w : List Nat := [2, 2, 7, 0] ++ List.replicate 8 0
       (fld (anchor 0) 0 1 = 1 ∧ (anchor 0).length = 16 ∧ (d.obj 0).dom = 0 ∧ -30720 ≤ fldS (anchor 0) 2 2 ∧ fldS (anchor 0) 2 2 ≤ 3072)
         ∧ d.badFrame 0 (d.pAt 0 (d.appBlk 0 9)) (frame 9 1 (anchor 0)) = false
         ∧ (fld w 0 1 = 2 ∧ w.length = 12 ∧ (d.obj (fld w 1 1)).dom = 0 ∧ (d.obj 2).anchorOf (fld w 2 2) = some { gen := 7, x := 1, y := 2, z := 3 })
         ∧ d.badFrame 0 (d.pAt 0 (d.appBlk 0 9)) (frame 9 1 w) = false
         ∧ (d.obj (fld (anchor 1) 1 1)).dom ≠ 0
         ∧ d.badFrame 0 (d.pAt 0 (d.appBlk 0 9)) (frame 9 1 (List.replicate 16 0)) = false ∧ fld (List.replicate 16 0) 0 1 = 0)
    ∧ (let d := scene { Stream.reset with expect := 9 } []
       d.renders 0 = true ∧ (d.stream 0).en = true ∧ (d.dom 0).nextBlk + 3 * (d.dom (d.clk 0)).blk ≤ d.appBlk 0 (d.stream 0).expect)
    ∧ (let d := scene { Stream.reset with expect := 0 } []
       d.appBlk 0 (d.stream 0).expect < (d.dom 0).nextBlk + 3 * (d.dom (d.clk 0)).blk ∧ d.frameStaged 0 = false)
    ∧ (let u : Upd := { obj := 0, x := 0, y := 0, z := 0, gain := 0, count := 1 }
       let d := scene { Stream.reset with shadow := [u], shadowFor := some 0, shadowP := 4 } []
       (d.stream 0).shadowFor = some 0 ∧ d.appBlk 0 0 ≤ (d.dom 0).nextBlk ∧ (d.stream 0).shadowMin ≤ (d.dom 0).nextBlk
         ∧ (d.stream 0).shadow = [u] ∧ (d.stream 0).undo = [] ∧ (d.stream 0).shadowP = (d.stream 0).p
         ∧ ({ d.stream 0 with shadowP := 8 } : Stream).shadowP ≠ (d.stream 0).p ∧ (d.dom 0).nextBlk < d.appBlk 0 9
         ∧ ({ d.obj 0 with expert := true } : Obj).expert = true) := by decide +kernel

/-! ### Diagnostics, ports, microphones -/

/-- Channel 46 under a test of tag 400. -/
def testDev (g : Diag) : Dev :=
  tagDev 400 { Tag.reset with st := .active, ph := .long, waits := 2 ^ 46, cmd := some (.diagRun (2 ^ 46) 1 0),
                              hdr := some (hdr (.diagRun (2 ^ 46) 1 0)) }
    (ch46 { sw with diag := { g with ph := .run, tag := 400 } })

theorem witness_TestsEndAndAreRepeated :
    (let d := testDev { Diag.reset with waitAt := some 0 }
     d.live = true ∧ (d.chan 46).diag.waitAt = some 0 ∧ 0 + 1000000 ≤ d.sys.uptime
       ∧ d.sys.uptime < 99500000 + 1000000)
    ∧ (let d := testDev { Diag.reset with kind := 1, test := 1, judged := 2 }
       let t := (d.chan 46).diag
       t.ph = .run ∧ t.outAt = none ∧ t.gone = false ∧ t.shut = none ∧ t.kind ≠ 4 ∧ t.failed = false ∧ (d.chan 46).st = .switching
         ∧ t.time d.sys.uptime = some 100000000 ∧ t.length ≤ 100000000 ∧ t.waitAt = none ∧ t.judged = t.windows.length
         ∧ (let g := d.tag t.tag
            g.st = .active ∧ g.ph = .long ∧ g.drop = false ∧ g.effs = [] ∧ g.outQ = [] ∧ g.rstatus = OK ∧ g.waits = 2 ^ 46
              ∧ t.relTags = [] ∧ g.hdr = some (hdr (.diagRun (2 ^ 46) 1 0)) ∧ (hdr (.diagRun (2 ^ 46) 1 0)).outlen = 0))
    ∧ (let t := ((testDev { Diag.reset with kind := 2, failed := true }).chan 46).diag
       t.kind ≠ 4 ∧ t.failed = true)
    ∧ (let t := ((testDev { Diag.reset with kind := 2, since := 99999999 }).chan 46).diag
       t.failed = false ∧ sw.st.on = true ∧ t.time base.sys.uptime = some 1 ∧ 1 < t.length)
    ∧ (let d := testDev { Diag.reset with kind := 4 }
       (d.chan 46).diag.kind = 4 ∧ d.acou.queue = [] ∧ (d.chan 46).diag.time d.sys.uptime = some 100000000
         ∧ (d.chan 46).diag.length ≤ 100000000)
    ∧ (let t := ((testDev { Diag.reset with kind := 4, since := 99999999, failed := true }).chan 46).diag
       t.kind = 4 ∧ t.failed = true ∧ t.time base.sys.uptime = some 1 ∧ 1 < t.length) := by decide +kernel

/-- Half of a pilot window with a current of 1 and a voltage of `v`. -/
def half (v : Rat) : Demod := { n := 1, vRe := v, vIm := 0, iRe := 1, iIm := 0 }

theorem witness_QuietAndPilotWindowsEnd :
    (let w : QWin := { start := 0, dur := 65535, period := 0 }
     let d := { ch46 { sw with diag := { Diag.reset with ph := .wait, window := true, kind := 1, test := 1 } } with
       acou := { base.acou with wins := [w] } }
     d.live = true ∧ d.acou.wins[0]? = some w ∧ bit d.acou.winOpen 0 = false ∧ d.winOpenNow w = true ∧ d.sys.ready = true
       ∧ d.waiting = [46] ∧ d.fits 46 w = true ∧ (d.chan 46).diag.kind ≠ 4 ∧ d.fits 46 { w with dur := 1 } = false
       ∧ base.waiting = [] ∧ base.winOpenNow w = false)
    ∧ (let a := { base.acou with wins := [{ start := 0, dur := 1, period := 0 }], winOpen := 1 }
       bit a.winOpen 0 = true ∧ a.winOpen = 2 ^ 0 ∧ ({ a with winOpen := 3 } : Acou).winOpen ≠ 2 ^ 0
         ∧ ∀ n, n < 48 → (base.chan n).diag.relTags = [])
    ∧ (let g := { Diag.reset with pilEn := true, pilFreq := 100, pilAt := 0, pilAcc := [half 8, half 8] }
       g.pilEn = true ∧ ({ sw with diag := g } : Chan).pilotOn = true ∧ g.pilAcc = [half 8, half 8]
         ∧ g.pilAt + 3117 + pilotCycles g.pilFreq * 10000000 / max 1 g.pilFreq ≤ base.sys.uptime ∧ g.pilBad = false
         ∧ base.sys.uptime < 99900000 + 3117 + pilotCycles g.pilFreq * 10000000 / max 1 g.pilFreq)
    ∧ coherent (half 8).imp (half 8).imp = true ∧ coherent (half 8).imp (half 4).imp = false := by
  decide +kernel

theorem witness_PortFramesTimersAndMicrophones :
    (let d := port3 { TPort.reset with st := .locked, en := true, role := 1, dom := 0 }
     d.live = true ∧ d.tags = [] ∧ (d.port 3).maskNext = none ∧ d.ctrlOk (d.port 3).dom = true ∧ (d.port 3).st = .locked
       ∧ (d.port 3).role = 1)
    ∧ (let d := port3 { TPort.reset with st := .unlocked, en := true, role := 0, dom := 0, errRun := 3 }
       (d.port 3).group = 0 ∧ (d.port 3).st = .unlocked ∧ (d.dom (d.port 3).dom).st ≠ .disabled ∧ (d.dom (d.port 3).dom).st ≠ .acquire
         ∧ ¬(ceilN (d.rxPos 3 0) < (d.port 3).onSc) ∧ ceilN (d.rxPos 3 0) < ({ d.port 3 with onSc := 2 ^ 40 } : TPort).onSc
         ∧ (d.port 3).errRun = 3 ∧ 1 ≠ (d.port 3).slots * (d.port 3).width)
    ∧ (TPort.reset.st = .off ∧ (base.dom 0).st = .disabled)
    ∧ (let d := port3 { TPort.reset with st := .locked, en := true, role := 0, dom := 0, nonaudio := 2 ^ 15,
                                         gates := [(30, { Gate.reset with st := .muted }), (31, { Gate.reset with st := .muted })] }
       (d.port 3).st = .locked ∧ (d.port 3).role ≠ 1 ∧ (d.port 3).lastAt + 10 ≤ d.sys.uptime
         ∧ (d.port 3).lastAt + 4000000 / (d.portClk 3).fs ≤ d.sys.uptime ∧ (d.port 3).rateAt + 100000 ≤ d.sys.uptime
         ∧ bit (d.port 3).nonaudio 15 = true ∧ Tab.get 0 (d.port 3).preAt 15 + 341333 ≤ d.sys.uptime
         ∧ ((d.port 3).gate (2 * 15)).st = .muted ∧ ((d.port 3).gate (2 * 15 + 1)).st = .muted)
    ∧ (let d := { base with pdm := { base.pdm with mask := 2 ^ 31 }, mics := [(31, { Mic.reset with faulty := true, stuckAt := some 0, settle := 5 })] }
       d.live = true ∧ bit d.pdm.mask 31 = true ∧ (d.mic 31).stuckAt = some 0 ∧ (d.mic 31).faulty = true ∧ 0 + 1000000 ≤ d.sys.uptime
         ∧ (d.mic 31).settle ≠ 0 ∧ (d.mic 31).settle ≤ d.sys.uptime) := by decide +kernel

/-- Two frame edges 100 ms and 101 ms apart at 48 kHz lie within 200 ppm and outside it. -/
theorem witness_PortFramesTimersAndMicrophones_rate :
    (let d := port3 { TPort.reset with st := .locked, en := true, rateT0 := 0, rateT1 := 100000000, rateN := 4800 }
     (d.ratePpb 3).natAbs ≤ 200000)
    ∧ (let d := port3 { TPort.reset with st := .locked, en := true, rateT0 := 0, rateT1 := 101000000, rateN := 4800 }
       200000 < (d.ratePpb 3).natAbs) := by decide +kernel

/-! ### Resets, power, processor, two-wire port -/

theorem witness_ResetsStartBootAndPowerCycle : base.live = true
    ∧ (let y := { base.sys with perst := true, refOk := false }
       y.perst = true ∧ y.refOk = false ∧ y.por = false)
    ∧ (let y := { base.sys with perst := true }
       y.perst = true ∧ y.por = false ∧ y.refOk = true)
    ∧ base.sys.por = false ∧ ({ base.sys with v3Low := some 0 } : Sys).v3Low = some 0 ∧ 0 + 100 ≤ base.sys.uptime
    ∧ ({ base.sys with por := true } : Sys).por = true ∧ base.sys.perst = false := by decide +kernel

theorem witness_ReferenceAndPowerStatesHoldChannels : base.live = true ∧ base.sys.refOk = true
    ∧ ({ base.sys with refOk := false } : Sys).refOk = false
    ∧ (∀ g, g = 0 ∨ g = 2 →
        let d := tagDev 400 { Tag.reset with st := .active, ph := .ending }
          { base with sys := { base.sys with pTag := some 400, pGoal := g } }
        d.sys.pTag = some 400 ∧ d.sys.pQueue = [] ∧ (d.sys.pGoal = 0 ∨ d.rampedDown = true) ∧ (d.tag 400).st = .active
          ∧ (d.tag 400).drop = false ∧ (d.tag 400).outQ = [] ∧ ∀ n, n < 48 → (d.chan n).stopTags = [] ∧ (d.chan n).idTag = none) := by
  refine ⟨by decide +kernel, by decide +kernel, by decide +kernel, ?_⟩
  rintro g (rfl | rfl) <;> decide +kernel

theorem witness_RestartsBootAndFlashComplete :
    (base.live = true ∧ base.sys.bootFail = false ∧ base.restartReq = none ∧ (down base).sys.ready = false ∧ base.sys.recovery = false
      ∧ base.mirSec ≠ some (base.sys.uptime / 1000000) ∧ base.sys.uptime < ({ base.rend with shortAt := 99500000 } : Rend).shortAt + 1000000)
    ∧ (let d := { base with restartReq := some 0 }
       d.restartReq = some 0 ∧ d.restartDue = true)
    ∧ (let d := tagDev 400 { Tag.reset with st := .active, ph := .sched } (down base)
       (d.tag 400).st = .active ∧ (d.tag 400).survives = false ∧ (d.tag 400).drop = false)
    ∧ (let y := { base.sys with flyStart := some 0 }
       y.flyStart = some 0 ∧ y.flyDone = false ∧ 0 + 2000000 ≤ y.uptime)
    ∧ (let y := { base.sys with provenAt := some 0 }
       y.provenAt = some 0 ∧ 0 + 60000000 ≤ y.uptime)
    ∧ (∀ c, c = Cmd.stage 0 0 4096 0 ∨ c = Cmd.ownerKey 5 0 →
        let d := tagDev 400 { Tag.reset with st := .active, ph := .ending, cmd := some c } base
        d.live = true ∧ d.sys.ready = true ∧ (d.tag 400).st = .active ∧ (d.tag 400).ph = .ending ∧ (d.tag 400).waits = 0 ∧ (d.tag 400).drop = false
          ∧ (d.tag 400).outQ = [] ∧ (d.tag 400).cmd = some c) := by
  refine ⟨by decide +kernel, by decide +kernel, by decide +kernel, by decide +kernel, by decide +kernel, ?_⟩
  rintro c (rfl | rfl) <;> decide +kernel

theorem witness_TwoWireTransfersAndFaults :
    (let d := twDev { base.tw with awake := true }
     d.live = true ∧ d.tw.awake = true ∧ d.tw.word = [] ∧ d.tw.pins < 8 ∧ d.tw.addr2 = 0 ∧ 0x20 ≠ 0x58 + d.tw.pins)
    ∧ (let w := { base.tw with awake := false }
       w.awake = false ∧ w.waking = false ∧ w.pins < 8 ∧ w.word = [])
    ∧ (let w := { base.tw with x := .write, ptr := 0x20FF }
       w.x = .write ∧ w.word = [] ∧ 0x2000 ≤ w.ptr ∧ w.ptr < 0x2100 ∧ w.ptr % 32 = 31)
    ∧ (let w := { base.tw with x := .read, snap := [7] }
       w.x = .read ∧ w.suspended = false ∧ w.snap = 7 :: [])
    ∧ ({ base.tw with x := .ptrHi } : Tw).x = .ptrHi ∧ ({ base.tw with x := .ptrLo } : Tw).x = .ptrLo
    ∧ ({ base.tw with suspended := true } : Tw).suspended = true
    ∧ (let d := { twDev { base.tw with awake := true } with sys := { base.sys with pstate := 2 } }
       d.live = true ∧ d.sys.pstate = 2 ∧ d.tw.awake = true ∧ d.tw.x = .idle ∧ d.tw.stopAt + 100000 ≤ d.sys.uptime)
    ∧ ({ base.tw with waking := true } : Tw).waking = true := by decide +kernel

/-! ### Ramcen commands -/

theorem witness_CommandsNeedFreeTagOfTheirSender :
    Instr.ramcen (.mdtInfo (hdr .mdtInfo)) = some (hdr .mdtInfo, .mdtInfo) ∧ base.live = true
    ∧ (∀ e ∈ base.tags, e.2.st = .active → e.2.ph ≠ .waiting) ∧ (down base).sys.ready = false
    ∧ base.arrives (.ring 5) = false ∧ base.sys.ready = true ∧ base.arrives (.mbx 0) = true
    ∧ ownTag (base.senderOf (.mbx 0)) 399 = false ∧ ownTag (base.senderOf (.mbx 0)) 400 = true
    ∧ ((tagDev 400 { Tag.reset with st := .done } base).tag 400).st ≠ .free := by decide +kernel

theorem witness_FailedChecksLeaveNoEffect :
    (takesB base (hdr .mdtInfo) = true
      ∧ (base.takeTag { hdr .mdtInfo with plen := 8 } 0x0900).early { hdr .mdtInfo with plen := 8 } 0x0900 = some BAD_LENGTH)
    ∧ (let c : Cmd := .ctxWrite 1 [⟨0, 1, 24, 1000, 0, 0, 1⟩]
       let h := { hdr c with plen := 40, len := 104 }
       takesB base h = true ∧ (base.takeTag h (Cmd.op c)).early h (Cmd.op c) = none ∧ countOk (Cmd.op c) h.plen (Cmd.count c) = false)
    ∧ (let c : Cmd := .envUnlock 1 5
       let x := base.entered (hdr c) c
       takesB base (hdr c) = true ∧ (base.takeTag (hdr c) (Cmd.op c)).early (hdr c) (Cmd.op c) = none
         ∧ countOk (Cmd.op c) (hdr c).plen (Cmd.count c) = true ∧ x.blocked 400 = false ∧ (x.authorise c 0).2 = false)
    ∧ (let c : Cmd := .chVolume 0 0 0
       let x := base.entered (hdr c) c
       takesB base (hdr c) = true ∧ (base.takeTag (hdr c) (Cmd.op c)).early (hdr c) (Cmd.op c) = none
         ∧ countOk (Cmd.op c) (hdr c).plen (Cmd.count c) = true ∧ x.blocked 400 = false ∧ (x.authorise c 0).2 = true
         ∧ (x.authorise c 0).1.refuse 400 (hdr c) c = some OUT_OF_RANGE)
    ∧ (let c : Cmd := .chVolume (2 ^ 46) 0 0
       let x := stopping.entered (hdr c) c
       takesB stopping (hdr c) = true ∧ (stopping.takeTag (hdr c) (Cmd.op c)).early (hdr c) (Cmd.op c) = none
         ∧ countOk (Cmd.op c) (hdr c).plen (Cmd.count c) = true ∧ x.blocked 400 = false ∧ (x.authorise c 0).2 = true
         ∧ (x.authorise c 0).1.refuse 400 (hdr c) c = none ∧ (x.authorise c 0).1.swept 400 c = some 401) := by decide +kernel

theorem witness_ScheduledCommandsWaitForTheirSample :
    (let c : Cmd := .chVolume 1 (-256) 0
     let h := { hdr c with atLt := true, lt := 2 ^ 32 }
     runs0.passes (hdr c) c ∧ runs0.passes h c ∧ h.atLt = true ∧ authOf c 0 = none ∧ (Cmd.testOf c).isNone = true ∧ Cmd.mom c ≠ .dis
       ∧ runs0.domsOf c ≠ [] ∧ Cmd.mom c ≠ .a ∧ Cmd.disables c = [] ∧ ∀ r ∈ runs0.domsOf c, (runs0.dom r).st ≠ .disabled) :=
  ⟨passes_of (by decide +kernel) (by decide +kernel), passes_of (by decide +kernel) (by decide +kernel), by decide +kernel,
   by decide +kernel, by decide +kernel, by decide +kernel, by decide +kernel, by decide +kernel, by decide +kernel, by decide +kernel⟩

theorem witness_BridgedPartnersAreNotAddressed :
    (let c : Cmd := .chVolume (2 ^ 47) 0 0
     let x := bridged.entered (hdr c) c
     takesB bridged (hdr c) = true ∧ (bridged.takeTag (hdr c) (Cmd.op c)).early (hdr c) (Cmd.op c) = none
       ∧ countOk (Cmd.op c) (hdr c).plen (Cmd.count c) = true ∧ x.blocked 400 = false ∧ (x.authorise c 0).2 = true
       ∧ bridged.namesPartner (Cmd.chmask c) = true)
    ∧ (∀ c, c = Cmd.chStatus 47 ∨ c = Cmd.faultCounters (2 ^ 47) →
        passB bridged (hdr c) c = true ∧ (hdr c).rsvd = 0 ∧ (hdr c).atLt = false)
    ∧ acts bridged (.chBridge 0)
    ∧ (let d := { bridged with chans := [(47, { Chan.reset with st := .hiz })] }
       let c := Cmd.chBridge 0
       let x := d.entered (hdr c) c
       takesB d (hdr c) = true ∧ (d.takeTag (hdr c) (Cmd.op c)).early (hdr c) (Cmd.op c) = none
         ∧ countOk (Cmd.op c) (hdr c).plen (Cmd.count c) = true ∧ x.blocked 400 = false ∧ (x.authorise c 0).2 = true
         ∧ (d.pr 23).bridged ≠ bit 0 23 ∧ (d.chan (2 * 23 + 1)).st ≠ .disabled) := by
  refine ⟨by decide +kernel, ?_, acts_of (by decide +kernel), by decide +kernel⟩
  rintro c (rfl | rfl) <;> decide +kernel

/-! ### Commands that act at once -/

/-- A good signature authorises. -/
theorem authorise_good {d : Dev} {c : Cmd} {sig : Nat} {bytes : List Nat} (a : authOf c 0 = some (sig, bytes))
    (f : d.nvm.ownerKey.isNone = false) (g : d.sigGood (Cmd.op c) sig bytes = true) :
    d.authorise c 0 = ({ d with nonce := none }, true) := by
  simp [Dev.authorise, a, f, g]

/-- A signature that verifies over opcode, payload and nonce is good. -/
theorem keyed_good {c : Cmd} {sig : Nat} {bytes : List Nat} (v : Config.sigOk 5 (Cmd.op c) bytes 7 sig = true) :
    (keyed.entered (hdr c) c).sigGood (Cmd.op c) sig bytes = true := by
  change (decide ((100000000 : Nat) ≤ 99000000 + 60000000) && Config.sigOk 5 (Cmd.op c) bytes 7 sig) = true
  rw [v]; rfl

/-- An authorised command acts where its signature verifies and its other checks pass. -/
theorem keyed_acts {c : Cmd} {sig : Nat} {bytes : List Nat} (a : authOf c 0 = some (sig, bytes))
    (v : Config.sigOk 5 (Cmd.op c) bytes 7 sig = true) (x : takesB keyed (hdr c) = true)
    (y : (keyed.takeTag (hdr c) (Cmd.op c)).early (hdr c) (Cmd.op c) = none)
    (y' : countOk (Cmd.op c) (hdr c).plen (Cmd.count c) = true ∧ (keyed.entered (hdr c) c).blocked 400 = false)
    (z : Dev.refuse { keyed.entered (hdr c) c with nonce := none } 400 (hdr c) c = none)
    (z' : Dev.swept { keyed.entered (hdr c) c with nonce := none } 400 c = none)
    (w : nowB keyed (hdr c) c = true) : acts keyed c := by
  have g := authorise_good a (d := keyed.entered (hdr c) c) rfl (keyed_good v)
  simp only [nowB, Bool.and_eq_true, Bool.not_eq_true', decide_eq_true_eq] at w
  exact { takes_of x with
          early := y, count := y'.1, free_ := y'.2, auth := by rw [g], valid := by rw [g]; exact z,
          open_ := by rw [g]; exact z', asap := w.1, now := w.2 }

theorem witness_envUnlock (v : Config.sigOk 5 0x0802 (le 8 1 ++ List.replicate 64 0) 7 9 = true) : acts keyed (.envUnlock 1 9) :=
  keyed_acts rfl v (by decide +kernel) (by decide +kernel) (by decide +kernel) (by decide +kernel) (by decide +kernel) (by decide +kernel)
theorem witness_ownerKey_replaced (v : Config.sigOk 5 0x0803 (le 64 6 ++ List.replicate 64 0) 7 9 = true) :
    acts keyed (.ownerKey 6 9) := keyed_acts rfl v (by decide +kernel) (by decide +kernel) (by decide +kernel) (by decide +kernel) (by decide +kernel) (by decide +kernel)
theorem witness_mordantClear (v : Config.sigOk 5 0x0807 (3 :: List.replicate 71 0) 7 9 = true) :
    acts keyed (.mordantClear 3 9) := keyed_acts rfl v (by decide +kernel) (by decide +kernel) (by decide +kernel) (by decide +kernel) (by decide +kernel) (by decide +kernel)
theorem witness_getSummary : base.actsNow { hdr .getSummary with out := 64, outlen := 98304 } .getSummary := 
  now_of (by decide +kernel) (by decide +kernel) (by decide +kernel)
theorem witness_getInfo : acts base (.getInfo) := acts_of (by decide +kernel)
theorem witness_cancel : acts busy (.cancel 401) := acts_of (by decide +kernel)
theorem witness_tbRate : acts base (.tbRate 0 3 0 1125) := acts_of (by decide +kernel)
theorem witness_tbEnable : acts base (.tbEnable 0 1) := acts_of (by decide +kernel)
theorem witness_tbEnable0 : acts base (.tbEnable 0 0) := acts_of (by decide +kernel)
theorem witness_tbTiming : acts base (.tbTiming 0 7 100 6000 1000) := acts_of (by decide +kernel)
theorem witness_tbDpll : acts base (.tbDpll 0 50) := acts_of (by decide +kernel)
theorem witness_tbClockmaster : acts base (.tbClockmaster 1) := acts_of (by decide +kernel)
theorem witness_tbPair : acts base (.tbPair 0 1 1 0) := acts_of (by decide +kernel)
theorem witness_mbxConfig : acts base (.mbxConfig 1 4 0 0 20 0) := acts_of (by decide +kernel)
theorem witness_restart : acts base (.restart 0) := acts_of (by decide +kernel)
theorem witness_powerState : acts base (.powerState 1) := acts_of (by decide +kernel)
theorem witness_twConfig : acts base (.twConfig 0 0 0 1) := acts_of (by decide +kernel)
theorem witness_chEnable : acts base (.chEnable 3 1 1) := acts_of (by decide +kernel)
theorem witness_chEnable0 : acts base (.chEnable 3 0 0) := acts_of (by decide +kernel)
theorem witness_chVolume : acts base (.chVolume 1 (-256) 0) := acts_of (by decide +kernel)
theorem witness_chMute : acts base (.chMute 1 1 0) := acts_of (by decide +kernel)
theorem witness_chMuteHeld :
    (let d := base.updDiag 0 (fun t => { t with muteSet := true })
     acts d (.chMute 1 0 0) ∧ (d.chan 0).diag.muteSet = true) := ⟨acts_of (by decide +kernel), by decide +kernel⟩
theorem witness_chBridge : acts base (.chBridge 1) := acts_of (by decide +kernel)
theorem witness_chLoop : acts base (.chLoop 1 coef0) := acts_of (by decide +kernel)
theorem witness_chCarrier : acts base (.chCarrier 1 1600 0 3) := acts_of (by decide +kernel)
theorem witness_chZcto : acts base (.chZcto 1 20) := acts_of (by decide +kernel)
theorem witness_chStatus : acts base (.chStatus 5) := acts_of (by decide +kernel)
theorem witness_objSource : acts base (.objSource 3 2 0 0 1) := acts_of (by decide +kernel)
theorem witness_objSource0 : acts base (.objSource 3 0 0 0 1) := acts_of (by decide +kernel)
theorem witness_objPosition : acts base (.objPosition 3 point0 0) := acts_of (by decide +kernel)
theorem witness_objBulkdelay : acts base (.objBulkdelay 3 100 65535) := acts_of (by decide +kernel)
theorem witness_ctxWrite : acts base (.ctxWrite 1 [⟨0, 1, 24, 1000, 0, 0, 1⟩]) := acts_of (by decide +kernel)
theorem witness_shapeLoad : acts base (.shapeLoad 0 1 (List.replicate 64 0)) := acts_of (by decide +kernel)
theorem witness_geometry : acts base (.geometry 0 1 [point0]) := acts_of (by decide +kernel)
theorem witness_panLaw : acts base (.panLaw 2 100) := acts_of (by decide +kernel)
theorem witness_sceneConfig : acts base (.sceneConfig 0 0 4 0xFFFF) := acts_of (by decide +kernel)
theorem witness_sceneConfig1 : acts (ringDev 3 64) (.sceneConfig 0 1 4 5) := acts_of (by decide +kernel)
theorem witness_objBasic : acts base (.objBasic 3) := acts_of (by decide +kernel)
theorem witness_portPreset : acts base (.portPreset 0 2 1 0) := acts_of (by decide +kernel)
theorem witness_portFormat : acts base (.portFormat 0 8 32 1 1 0 1 0) := acts_of (by decide +kernel)
theorem witness_portEnable : acts base (.portEnable 0 1 0xFFFF 0xFFFF) := acts_of (by decide +kernel)
theorem witness_portEnable0 : acts base (.portEnable 0 0 0xFFFF 0xFFFF) := acts_of (by decide +kernel)
theorem witness_portMask : acts base (.portMask 0 3 3) := acts_of (by decide +kernel)
theorem witness_portSlip : acts base (.portSlip 0 1 256 10) := acts_of (by decide +kernel)
theorem witness_portRoute : acts base (.portRoute 0 (List.replicate 32 0)) := acts_of (by decide +kernel)
theorem witness_pdmConfig : acts base (.pdmConfig 0 1 [1, 0, 0, 0]) := acts_of (by decide +kernel)
theorem witness_protProfile : acts base (.protProfile 1 0) := acts_of (by decide +kernel)
theorem witness_protThermal : acts base (.protThermal 1 ConstSet.generic) := acts_of (by decide +kernel)
theorem witness_protTs : acts base (.protTs 1 TsSet.generic) := acts_of (by decide +kernel)
theorem witness_protLimits : acts base (.protLimits 1 500 1000 300 100) := acts_of (by decide +kernel)
theorem witness_railBudget : acts base (.railBudget 200) := acts_of (by decide +kernel)
theorem witness_diagRun : acts base (.diagRun 1 0 0) := acts_of (by decide +kernel)
theorem witness_diagTones : acts base (.diagTones 1 0 400 12000 (-7680) 100) := acts_of (by decide +kernel)
theorem witness_pilot : acts base (.pilot 1 1 100 (-7680)) := acts_of (by decide +kernel)
theorem witness_acoustic : acts base (.acoustic 1 0 0 0 (-7680)) := acts_of (by decide +kernel)
theorem witness_quietWindows : acts base (.quietWindows 0 []) := acts_of (by decide +kernel)
theorem witness_measBind : acts base (.measBind 0xFFFF) := acts_of (by decide +kernel)
theorem witness_ringSetup : acts base (.ringSetup 5 cplRing) := acts_of (by decide +kernel)
theorem witness_ringDestroy : acts base (.ringDestroy 5) := acts_of (by decide +kernel)
theorem witness_isoReserve : acts base (.isoReserve 30 30) := acts_of (by decide +kernel)
theorem witness_envSet : acts base (.envSet 1 500 1000 300 100 0 0) := acts_of (by decide +kernel)
theorem witness_authChallenge : acts base (.authChallenge) := acts_of (by decide +kernel)
theorem witness_ownerKey : acts base (.ownerKey 5 0) := acts_of (by decide +kernel)
theorem witness_stage : acts base (.stage 0 0 4096 0) := acts_of (by decide +kernel)
theorem witness_stageCommit : acts base (.stageCommit 0) := acts_of (by decide +kernel)
theorem witness_activate : acts staged (.activate 1 1) := acts_of (by decide +kernel)
theorem witness_mdtInfo : acts base (.mdtInfo) := acts_of (by decide +kernel)
theorem witness_mdtExport : acts (ringDev 12 64) (.mdtExport 0 0 1 5) := acts_of (by decide +kernel)
theorem witness_mdtNote : acts base (.mdtNote 1 (List.replicate 32 0)) := acts_of (by decide +kernel)
theorem witness_decPreset : acts base (.decPreset 1 1) := acts_of (by decide +kernel)
theorem witness_decFir : acts base (.decFir 1 1 1 [0]) := acts_of (by decide +kernel)
theorem witness_decSwap : acts base (.decSwap 1) := acts_of (by decide +kernel)
theorem witness_decDcblock : acts base (.decDcblock 1 20 0) := acts_of (by decide +kernel)
theorem witness_dsync : acts base (.dsync) := acts_of (by decide +kernel)
theorem witness_policy : acts base (.policy 1 1 1) := acts_of (by decide +kernel)
theorem witness_ocLimits : acts base (.ocLimits 1 500 8 8 100 100 3) := acts_of (by decide +kernel)
theorem witness_thLimits : acts base (.thLimits 1 1000) := acts_of (by decide +kernel)
theorem witness_dcLimits : acts base (.dcLimits 1 1000 100 10) := acts_of (by decide +kernel)
theorem witness_faultClear : acts base (.faultClear 1) := acts_of (by decide +kernel)
theorem witness_emgMuteCmd : acts base (.emgMuteCmd 1 0 20) := acts_of (by decide +kernel)
theorem witness_faultCounters : acts base (.faultCounters 1) := acts_of (by decide +kernel)

/-! ### Well-formedness -/

/-- A number that fits no field. -/
def big : Nat := 2 ^ 1024

theorem test_illFormedCommands_1 : ([.cancel big, .tbRate big 0 0 0, .tbRate 0 big 0 0, .tbRate 0 0 big 0,
  .tbRate 0 0 0 big, .tbEnable big 0, .tbEnable 0 big, .tbTiming big 0 0 0 0,
  .tbTiming 0 big 0 0 0, .tbTiming 0 0 big 0 0, .tbTiming 0 0 0 big 0, .tbTiming 0 0 0 0 big,
  .tbDpll big 0, .tbDpll 0 big, .tbClockmaster big, .tbPair big 0 0 0,
  .tbPair 0 big 0 0, .tbPair 0 0 big 0, .tbPair 0 0 0 big, .tbPair 0 0 0 (-(2 ^ 1024)),
  .mbxConfig big 0 0 0 0 0, .mbxConfig 0 big 0 0 0 0, .mbxConfig 0 0 big 0 0 0, .mbxConfig 0 0 0 big 0 0,
  .mbxConfig 0 0 0 0 big 0, .mbxConfig 0 0 0 0 0 big, .restart big, .powerState big,
  .twConfig big 0 0 0, .twConfig 0 big 0 0, .twConfig 0 0 big 0, .twConfig 0 0 0 big,
  .chEnable big 0 0, .chEnable 0 big 0, .chEnable 0 0 big, .chVolume big 0 0,
  .chVolume 0 big 0, .chVolume 0 (-(2 ^ 1024)) 0, .chVolume 0 0 big, .chMute big 0 0] : List Cmd).all (fun c => !Cmd.wf c) = true := by decide +kernel

theorem test_illFormedCommands_2 : ([.chMute 0 big 0, .chMute 0 0 big, .chBridge big, .chLoop big coef0,
  .chLoop 0 { coef0 with vfs := big }, .chLoop 0 { coef0 with kr := big }, .chLoop 0 { coef0 with phi := [] }, .chLoop 0 { coef0 with pre := [] },
  .chCarrier big 0 0 0, .chCarrier 0 big 0 0, .chCarrier 0 0 big 0, .chCarrier 0 0 0 big,
  .chZcto big 0, .chZcto 0 big, .chStatus big, .objSource big 0 0 0 0,
  .objSource 0 big 0 0 0, .objSource 0 0 big 0 0, .objSource 0 0 0 big 0, .objSource 0 0 0 0 big,
  .objPosition big point0 0, .objPosition 0 ⟨big, 0, 0⟩ 0, .objPosition 0 ⟨0, -(2 ^ 1024), 0⟩ 0, .objPosition 0 ⟨0, 0, big⟩ 0,
  .objPosition 0 point0 big, .objPosition 0 point0 (-(2 ^ 1024)), .objBulkdelay big 0 0, .objBulkdelay 0 big 0,
  .objBulkdelay 0 0 big, .ctxWrite big [], .ctxWrite 0 [⟨0, 0, 0, 0, 0, 0, 0⟩], .shapeLoad big 0 [],
  .shapeLoad 0 big [], .shapeLoad 0 0 [big], .geometry big 0 [], .geometry 0 big [],
  .geometry 0 0 [point0], .panLaw big 0, .panLaw 0 big, .sceneConfig big 0 0 0] : List Cmd).all (fun c => !Cmd.wf c) = true := by decide +kernel

theorem test_illFormedCommands_3 : ([.sceneConfig 0 big 0 0, .sceneConfig 0 0 big 0, .sceneConfig 0 0 0 big, .objBasic big,
  .portPreset big 0 0 0, .portPreset 0 big 0 0, .portPreset 0 0 big 0, .portPreset 0 0 0 big,
  .portFormat big 0 0 0 0 0 0 0, .portFormat 0 big 0 0 0 0 0 0, .portFormat 0 0 big 0 0 0 0 0, .portFormat 0 0 0 big 0 0 0 0,
  .portFormat 0 0 0 0 big 0 0 0, .portFormat 0 0 0 0 0 big 0 0, .portFormat 0 0 0 0 0 0 big 0, .portFormat 0 0 0 0 0 0 0 big,
  .portEnable big 0 0 0, .portEnable 0 big 0 0, .portEnable 0 0 big 0, .portEnable 0 0 0 big,
  .portMask big 0 0, .portMask 0 big 0, .portMask 0 0 big, .portSlip big 0 0 0,
  .portSlip 0 big 0 0, .portSlip 0 0 big 0, .portSlip 0 0 0 big, .portRoute big (List.replicate 32 0),
  .portRoute 0 [big], .pdmConfig big 0 [0, 0, 0, 0], .pdmConfig 0 big [0, 0, 0, 0], .pdmConfig 0 0 [big],
  .protProfile big 0, .protProfile 0 big, .protThermal big ConstSet.generic, .protThermal 0 { ConstSet.generic with t0 := big },
  .protThermal 0 { ConstSet.generic with ke := big }, .protThermal 0 { ConstSet.generic with kc := big }, .protTs big TsSet.generic, .protTs 0 { TsSet.generic with re := big }] : List Cmd).all (fun c => !Cmd.wf c) = true := by decide +kernel

theorem test_illFormedCommands_4 : ([.protTs 0 { TsSet.generic with hpmin := big }, .protLimits big 0 0 0 0, .protLimits 0 big 0 0 0, .protLimits 0 0 big 0 0,
  .protLimits 0 0 0 big 0, .protLimits 0 0 0 0 big, .railBudget big, .diagRun big 0 0,
  .diagRun 0 big 0, .diagRun 0 0 big, .diagTones big 0 0 0 0 0, .diagTones 0 big 0 0 0 0,
  .diagTones 0 0 big 0 0 0, .diagTones 0 0 0 big 0 0, .diagTones 0 0 0 0 big 0, .diagTones 0 0 0 0 (-(2 ^ 1024)) 0,
  .diagTones 0 0 0 0 0 big, .pilot big 0 0 0, .pilot 0 big 0 0, .pilot 0 0 big 0,
  .pilot 0 0 0 big, .pilot 0 0 0 (-(2 ^ 1024)), .acoustic big 0 0 0 0, .acoustic 0 big 0 0 0,
  .acoustic 0 0 big 0 0, .acoustic 0 0 0 big 0, .acoustic 0 0 0 0 big, .acoustic 0 0 0 0 (-(2 ^ 1024)),
  .quietWindows big [], .quietWindows 0 [⟨0, 0, 0⟩], .measBind big, .ringSetup big cplRing,
  .ringSetup 0 { cplRing with base := big }, .ringSetup 0 { cplRing with type := big }, .ringSetup 0 { cplRing with tail := big }, .ringDestroy big,
  .isoReserve big 0, .isoReserve 0 big, .envSet big 0 0 0 0 0 0, .envSet 0 big 0 0 0 0 0] : List Cmd).all (fun c => !Cmd.wf c) = true := by decide +kernel

theorem test_illFormedCommands_5 : ([.envSet 0 0 big 0 0 0 0, .envSet 0 0 0 big 0 0 0, .envSet 0 0 0 0 big 0 0, .envSet 0 0 0 0 0 big 0,
  .envSet 0 0 0 0 0 0 big, .envUnlock big 0, .envUnlock 0 big, .ownerKey big 0,
  .ownerKey 0 big, .stage big 0 0 0, .stage 0 big 0 0, .stage 0 0 big 0,
  .stage 0 0 0 big, .stageCommit big, .activate big 0, .activate 0 big,
  .mordantClear big 0, .mordantClear 0 big, .mdtExport big 0 0 0, .mdtExport 0 big 0 0,
  .mdtExport 0 0 big 0, .mdtExport 0 0 0 big, .mdtNote big (List.replicate 32 0), .mdtNote 0 [],
  .decPreset big 0, .decPreset 0 big, .decFir big 0 0 [], .decFir 0 big 0 [],
  .decFir 0 0 big [], .decFir 0 0 0 [big], .decSwap big, .decDcblock big 0 0,
  .decDcblock 0 big 0, .decDcblock 0 0 big, .policy big 0 0, .policy 0 big 0,
  .policy 0 0 big, .ocLimits big 0 0 0 0 0 0, .ocLimits 0 big 0 0 0 0 0, .ocLimits 0 0 big 0 0 0 0] : List Cmd).all (fun c => !Cmd.wf c) = true := by decide +kernel

theorem test_illFormedCommands_6 : ([.ocLimits 0 0 0 big 0 0 0, .ocLimits 0 0 0 0 big 0 0, .ocLimits 0 0 0 0 0 big 0, .ocLimits 0 0 0 0 0 0 big,
  .thLimits big 0, .thLimits 0 big, .dcLimits big 0 0 0, .dcLimits 0 big 0 0,
  .dcLimits 0 0 big 0, .dcLimits 0 0 0 big, .faultClear big, .emgMuteCmd big 0 0,
  .emgMuteCmd 0 big 0, .emgMuteCmd 0 0 big, .faultCounters big, .ctxWrite 1 [⟨big, 0, 0, 0, 0, 0, 0⟩],
  .geometry 0 1 [⟨big, 0, 0⟩], .shapeLoad 0 1 (List.replicate 64 big), .quietWindows 1 [⟨0, big, 0⟩], .decFir 0 0 1 [big],
  .portRoute 0 (List.replicate 32 big), .pdmConfig 0 0 [0, 0, 0, big]] : List Cmd).all (fun c => !Cmd.wf c) = true := by decide +kernel

theorem test_illFormedEvents_1 : ([.stampedEffect 512, .completionWrite (.tag 512), .cmdEntryFetch 4096 (.cplError true) (.cplError true) (.cplError true) (.cplError true), .heldRecordWrite 4096,
  .drainComplete 4096 .own, .mbxDbWrite .pf0 64 true 0, .mbxDbWrite .pf0 8 true (2 ^ 64), .mbxUpack .pf0 64 0 0,
  .mbxUpack .pf0 8 65536 0, .mbxUpack .pf0 8 0 65536, .noticeTake 64, .mbxAckRead .pf0 64 true,
  .wdraw .pf0 64, .dnTmoClear .pf0 64, .mailboxTimeout 64 true, .upstreamPost 64,
  .upstreamTimeout 64, .upstreamRepost 64, .lockAcquireRead .pf0 32, .lockRelease .pf0 32 0,
  .lockRelease .pf0 0 (2 ^ 32), .lockForce .pf1 32 0, .lockForce .pf1 0 256, .doorbell 2 0 0 false,
  .doorbell 0 4096 0 false, .doorbell 0 0 (2 ^ 32) false, .resume 2 0 [], .resume 0 65536 [],
  .abort 2 0, .abort 0 65536, .invalidateDomain 2 0, .invalidateDomain 0 256,
  .invalidateInternal 2 0, .invalidateInternal 0 256, .invalidatePage 2 0 0, .invalidatePage 0 256 0,
  .invalidatePage 0 0 (2 ^ 64), .invalidateRegion 0 0 (2 ^ 64), .invalidateRegion 2 0 0, .invalidationDone 2] : List Instr).all (fun i => !i.wf) = true := by decide +kernel

theorem test_illFormedEvents_2 : ([.functionLevelReset 2, .fenceLift 2 false, .msixUnmask 2 none, .msixUnmask 0 (some 128),
  .trnRootWrite 2 false 0 0, .trnRootWrite 0 false 3 0, .trnRootWrite 0 false 0 (2 ^ 64), .translationFault 65536 0 false 0 [],
  .translationFault 0 (2 ^ 64) false 0 [], .translationFault 0 0 false (2 ^ 32) [], .completionTimeout 65536 0 0, .completionTimeout 0 (2 ^ 64) 0,
  .completionTimeout 0 0 (2 ^ 32), .readCompletion 65536 0 0 .own (.cplError true), .readCompletion 0 (2 ^ 64) 0 .own (.cplError true), .readCompletion 0 0 (2 ^ 32) .own (.cplError true),
  .stallTimeout 65536, .sramUe 0 0 0 0, .sramUe 7 0 0 0, .sramUe 1 0 0 (2 ^ 64),
  .sramSingleError 0, .sramSingleError 7, .linkTrained 0 1, .linkTrained 5 1,
  .linkTrained 1 3, .registerWrite .pf0 ⟨.bar0, (2 ^ 32)⟩ 4 0 none, .registerWrite .pf0 ⟨.bar0, 0⟩ 3 0 none, .registerWrite .pf0 ⟨.bar0, 0⟩ 4 (2 ^ 32) none,
  .clearOnRead .pf0 ⟨.bar0, (2 ^ 32)⟩ 4, .clearOnRead .pf0 ⟨.bar0, 0⟩ 3, .sysTimeLatchRead .pf0 6, .mordantWindowLoad .pf0 (2 ^ 32),
  .interruptCauseWrite 2 0 0, .interruptCauseWrite 0 (2 ^ 32) 0, .interruptCauseWrite 0 0 (2 ^ 32), .emgMuteWrite .pf0 (2 ^ 32),
  .emgCfgWrite .pf1 (2 ^ 32), .freezeDisarm 256, .sepiaAddr (2 ^ 32), .suppressionSecondEnd 65536 0] : List Instr).all (fun i => !i.wf) = true := by decide +kernel

theorem test_illFormedEvents_3 : ([.suppressionSecondEnd 0 65536, .powerOnReset 8, .flashWriteDone 512 ⟨1, 0, 0, 0, 0, true, true, true⟩ true, .lineWord 4 0 true 0,
  .lineWord 0 (2 ^ 64) true 0, .lineWordTimeout 4, .acquireTimerExpiry 4, .holdoverLimitExpiry 4,
  .renderBlock [4] 0 [] .own [], .edgeStamp 48 true 0 0 true, .edgeStamp 0 true 3 0 true, .loopUpdate 48 (List.replicate 32 true) (List.replicate 32 true) 0 0,
  .loopUpdate 0 (List.replicate 31 true) (List.replicate 31 true) 0 0, .loopUpdate 0 (List.replicate 64 true) (List.replicate 64 true) 0 0, .loopUpdate 0 (List.replicate 33 true) (List.replicate 32 true) 0 0, .senseOverload 48 true true,
  .cycleTrip 48 true true .own .own 0, .ocShutdown 48, .dcFault 48, .retryTimer 48,
  .probeDone 48 0, .retriesResetTimer 48, .softStartDone 48, .identificationDone 48 0 0,
  .softStopDone 48, .estimationWindowEnd 48 .own .own .own, .pilotWindowEnd 48 .own, .disturbanceWaitExpiry 48,
  .diagTestEnd 48 .own, .acousticOutputDone 48 [], .shareFault 24, .thermalShutdown 24 0,
  .sensorFault 24 true 0, .sensorRecover 24 0, .thermalRecover 6 0 0 0 0, .pvddFault 6 0,
  .pvddRecover 6 0, .isoLink 6 0, .isoLinkRestore 6, .upstreamFrameCorrupt 6] : List Instr).all (fun i => !i.wf) = true := by decide +kernel

theorem test_illFormedEvents_4 : ([.zeroCrossing (.chan 48), .zeroCrossing (.obj 256), .zeroCrossing (.port 4 0), .zeroCrossing (.port 0 64),
  .zeroCrossingTimeout (.chan 48), .disableRampDone (.chan 48), .quietWindowOpen 8, .quietWindowClose 8,
  .tdmFrame 4 0 [] 0, .tdmFrame 0 0 (List.replicate 1056 true) 0, .bclkTimeout 4, .fsyncTimeout 4,
  .rateIntervalEnd 4 .own, .nonaudioRelease 4 0, .nonaudioRelease 0 16, .micStuckDetect 32,
  .micFaultClear 32, .micSettleEnd 32, .sceneFrameParse 4 .own, .sceneFrameMissed 4,
  .sceneBankSwitch 4, .twAddress 128 true, .twWriteByte 256] : List Instr).all (fun i => !i.wf) = true := by decide +kernel

theorem test_illFormedReads : ReadRes.wf (.data (List.replicate 65537 0)) = false
    ∧ (∀ r, ReadRes.wf r = false → Instr.wf (.commandAccept r) = false ∧ Instr.wf (.cmdEntryFetch 0 r r r r) = false
        ∧ Instr.wf (.readCompletion 0 0 0 .own r) = false) := by
  refine ⟨?_, fun r h => ?_⟩
  · rw [ReadRes.wf, List.length_replicate]; rfl
  · simp [Instr.wf, Instr.ramcen, Instr.eventWf, h]

theorem test_illFormedDescriptors : ([{ hdr .mdtInfo with tag := 65536 }, { hdr .mdtInfo with domain := 4 }, { hdr .mdtInfo with lt := 2 ^ 64 },
  { hdr .mdtInfo with payload := 2 ^ 64 }, { hdr .mdtInfo with plen := 2 ^ 32 }, { hdr .mdtInfo with out := 2 ^ 64 },
  { hdr .mdtInfo with outlen := 2 ^ 32 }, { hdr .mdtInfo with len := 65537 }, { hdr .mdtInfo with via := .ring 4096 },
  { hdr .mdtInfo with via := .mbx 64 }] : List Hdr).all (fun h => !Instr.wf (.mdtInfo h)) = true := by decide +kernel

/-! ### Single steps, expected values from the manual -/

/-- ID_VENDOR and ID_DEVICE (R2, R403). -/
theorem test_idRegister : ∃ t, exec (.clearOnRead .pf0 ⟨.bar0, 0⟩ 4) (st base) = .next t ∧ t.dev.lastRead = le 4 0x1F3B :=
  ⟨_, rfl, by decide +kernel⟩

/-- The table gives no bits to any command, so no word spells one. -/
theorem test_noWordSpellsCommand : decodeTableWord 32 0x1F3B = none ∧ (st base).withFetchWord 32 7 = st base := ⟨rfl, rfl⟩

/-- Two masters read a free lock: the second reads the first one's ID (R105, R106). -/
theorem test_lockSecondReaderSeesOwner : ∃ t u, exec (.lockAcquireRead .pf0 3) (st base) = .next t
    ∧ exec (.lockAcquireRead .pf1 3) t = .next u ∧ u.dev.lastRead = [2, 0, 0, 0x80] := ⟨_, _, rfl, rfl, by decide +kernel⟩

/-- A forced release by PF1 needs the owner's number (R108). -/
theorem test_lockForceWrongOwner : ∃ t, exec (.lockForce .pf1 31 5) heldLock = .next t ∧ t.locks.who 31 = 4 ∧ t.locks.ignored = 1 :=
  ⟨_, rfl, by decide +kernel, by decide +kernel⟩

/-- A doorbell beyond the ring's size is ignored and counted (R72). -/
theorem test_doorbellTooFar : ∃ t, exec (.doorbell 1 5 17 false) (st (ring5 (ringR 7))) = .next t ∧ (t.dev.ring 5).tail = 3
    ∧ (t.dev.path 1).eDb = 1 := ⟨_, rfl, by decide +kernel, by decide +kernel⟩

/-- A doorbell within it moves TAIL (R72). -/
theorem test_doorbellMovesTail : ∃ t, exec (.doorbell 1 5 16 false) (st (ring5 (ringR 7))) = .next t ∧ (t.dev.ring 5).tail = 16 :=
  ⟨_, rfl, by decide +kernel⟩

/-- EPOCH passes over 0 (R120). -/
theorem test_epochWraps : ∃ t, exec .processorRestart (st { base with
    restartReq := some 0, sys := { base.sys with epoch := 0xFFFFFFFF } }) = .next t ∧ t.dev.sys.epoch = 1 :=
  ⟨_, rfl, by decide +kernel⟩

/-- The CRC of a line word covers bits 63 to 8: a flipped bit is refused and counted (R24). -/
theorem test_lineWordBadCrc : ∃ t, exec (.lineWord 0 (word0 + 2 ^ 22) true 0) (st runs0) = .next t ∧ (t.dev.dom 0).crcErr = 1 :=
  ⟨_, rfl, by decide +kernel⟩

/-- CH_VOLUME out of its 48 channels is out of range (R135). -/
theorem test_volumeNoSuchChannel : ∃ t, exec (.chVolume (hdr (.chVolume (2 ^ 48) 0 0)) (2 ^ 48) 0 0) (st base) = .next t
    ∧ (t.dev.tag 400).st = .done ∧ (t.dev.tag 400).status = 0x0103 := ⟨_, rfl, by decide +kernel, by decide +kernel⟩

/-- A command under a tag of another sender's range is refused without a tag (R113, R115). -/
theorem test_tagOfOtherSender : ∃ t, exec (.mdtInfo { hdr .mdtInfo with tag := 0 }) (st base) = .next t
    ∧ (t.dev.tag 0).st = .free ∧ t.dev.tless.length = 1 := ⟨_, rfl, by decide +kernel, by decide +kernel⟩

/-- A tick of an empty queue is one microsecond (log entry 1). -/
theorem test_idleTick : ∃ t, step (st base) = .next t ∧ t.dev.sys.uptime = 100000001 :=
  ⟨_, rfl, by decide +kernel⟩

/-- The commands of the witnesses are well-formed. -/
theorem test_wellFormedCommands : ([.cancel 401, .chVolume 1 (-256) 0, .chLoop 1 coef0, .geometry 0 1 [point0],
    .protThermal 1 ConstSet.generic, .protTs 1 TsSet.generic, .ringSetup 5 cplRing, .decFir 1 1 1 [0]] : List Cmd).all
      (fun c => Cmd.wf c) = true := by decide +kernel

/-! ### Clauses of the command statements -/

/-- A tag that waits for its sample. -/
def waiting (c : Cmd) : Tag :=
  { Tag.reset with st := .active, ph := .sched, sender := 3, cmd := some c, effs := [(0, 3200)],
                   hdr := some { hdr c with atLt := true } }

theorem witness_SystemCommandsActAtAcceptance_results :
    (let h := { hdr .getInfo with out := 64, outlen := 64 }
     base.actsNow h .getInfo ∧ base.writesOut h ∧ base.sys.recovery = false)
    ∧ (let d := tagDev 401 (waiting (.policy 1 1 1)) runs0
       acts d (.cancel 401) ∧ (d.tag 401).uncommitted = true ∧ (d.tag 401).drop = false)
    ∧ (let d := tagDev 401 { waiting (.policy 1 1 1) with ph := .long } runs0
       acts d (.cancel 401) ∧ (d.tag 401).uncommitted = false) ∧ (∀ n, n < 48 → (runs0.chan n).diag.relTags = []) :=
  ⟨⟨now_of (by decide +kernel) (by decide +kernel) (by decide +kernel), ⟨by decide, by decide, by decide, by decide⟩, by decide⟩,
   ⟨acts_of (by decide +kernel), by decide, by decide⟩, ⟨acts_of (by decide +kernel), by decide⟩, by decide +kernel⟩

/-- TD0 and TD1 form a pair; TD1 is DISABLED. -/
def paired : Dev := { runs0 with tb := { runs0.tb with pair := true } }

theorem witness_SystemCommandsActAtAcceptance_domains :
    (acts paired (.tbEnable 1 1) ∧ (paired.dom 1).st = .disabled ∧ paired.tb.pair = true ∧ (paired.dom 0).st ≠ .disabled)
    ∧ acts runs0 (.tbEnable 0 1) ∧ acts runs0 (.tbEnable 0 0) ∧ (runs0.dom 0).st ≠ .disabled ∧ (base.dom 0).st = .disabled
    ∧ base.tb.pair = false
    ∧ (let d := tagDev 401 (waiting (.tbDpll 0 50)) runs0
       acts d (.tbEnable 0 0) ∧ (d.tag 401).uncommitted = true ∧ d.inDom 0 (d.tag 401) = true ∧ (d.tag 401).drop = false
         ∧ d.tags.filter (fun p => p.1 = 401) = [(401, d.tag 401)])
    ∧ (acts runs0 (.tbDpll 0 50) ∧ (runs0.dom (runs0.clk 0)).ltSet = true) ∧ acts runs0 (.tbTiming 0 7 100 6000 1000)
    ∧ (∀ k, k < 4 → (base.dom k).st = .disabled ∧ (base.dom k).rangeMute = false) :=
  ⟨⟨acts_of (by decide +kernel), by decide, by decide, by decide⟩, acts_of (by decide +kernel), acts_of (by decide +kernel), by decide,
   by decide, by decide, ⟨acts_of (by decide +kernel), by decide, by decide +kernel, by decide, by decide +kernel⟩,
   ⟨acts_of (by decide +kernel), by decide⟩, acts_of (by decide +kernel), by decide⟩

theorem witness_SystemCommandsActAtAcceptance_waits :
    acts { base with sys := { base.sys with pTag := some 401, pGoal := 2 } } (.powerState 1) ∧ acts base (.powerState 0)
    ∧ base.sys.pTag = none ∧ base.sys.pstate = 0
    ∧ acts (mbx 1 { Mbx.reset with again := [up0 true] }) (.mbxConfig 1 8 0 0 10 4096)
    ∧ acts (twDev { base.tw with x := .write }) (.twConfig 0 0 0 1) ∧ (twDev { base.tw with x := .write }).tw.x ≠ .idle
    ∧ base.tw.x = .idle :=
  ⟨acts_of (by decide +kernel), acts_of (by decide +kernel), by decide, by decide, acts_of (by decide +kernel),
   acts_of (by decide +kernel), by decide, by decide⟩

theorem witness_ChannelCommandsActOnTheirChannels_running : acts (ch46 sw) (.chEnable (2 ^ 46) 0 0)
    ∧ acts { base with chans := [(46, sw)] } (.chEnable (2 ^ 46) 0 0) ∧ (ch46 sw).renders 0 = true ∧ base.renders 0 = false
    ∧ (∀ n, n < 48 → ((ch46 sw).chan n).diag.ph = .idle) ∧ (∀ n, ((ch46 sw).chan n).idTag ≠ some 400)
    ∧ (let d := { base with emg := { base.emg with mute := true, hard := true } }
       acts d (.chEnable 3 1 1) ∧ d.held 0 = true) ∧ base.held 0 = false ∧ (base.chan 0).firstId = true
    ∧ (let h := { hdr (.chStatus 5) with out := 128, outlen := 128 }
       base.actsNow h (.chStatus 5) ∧ base.writesOut h ∧ h.out % 128 = 0) := by
  refine ⟨acts_of (by decide +kernel), acts_of (by decide +kernel), by decide, by decide, by decide +kernel, fun n => ?_,
    ⟨acts_of (by decide +kernel), by decide +kernel⟩, by decide +kernel, by decide, now_of (by decide +kernel) (by decide +kernel) (by decide +kernel),
    ⟨by decide, by decide, by decide, by decide⟩, by decide⟩
  by_cases x : n = 46 <;> simp [ch46, Dev.chan, Tab.get, sw, Chan.reset, x, Ne.symm]

theorem witness_RenderCommandsActOnTheirResources_running :
    (let d := { runs0 with objs := [(3, { Obj.reset with src := 2 })] }
     acts d (.objSource 3 0 0 0 1) ∧ (d.obj 3).src ≠ 0 ∧ d.renders (d.obj 3).dom = true ∧ (d.obj 3).present = false
       ∧ (d.obj 3).hold = 0 ∧ d.trn.reads = [])
    ∧ (let d := { base with objs := [(3, { Obj.reset with src := 2 })] }
       acts d (.objSource 3 0 0 0 1) ∧ acts d (.objSource 3 2 0 0 7) ∧ d.renders (d.obj 3).dom = false
         ∧ acts d (.objBulkdelay 3 100 65535) ∧ (d.obj 3).stopped = false)
    ∧ acts { base with objs := [(3, { Obj.reset with src := 2, expert := true })] } (.objPosition 3 point0 0)
    ∧ acts { base with objs := [(3, { Obj.reset with expert := true })] } (.geometry 0 1 [point0])
    ∧ acts (let d := ringDev 3 64; { d with streams := [(0, { Stream.reset with en := true, ring := some 5, p := 8 })] }) (.sceneConfig 0 1 4 5) :=
  ⟨⟨acts_of (by decide +kernel), by decide, by decide, by decide, by decide, by decide⟩,
   ⟨acts_of (by decide +kernel), acts_of (by decide +kernel), by decide, acts_of (by decide +kernel), by decide⟩,
   acts_of (by decide +kernel), acts_of (by decide +kernel), acts_of (by decide +kernel)⟩

theorem witness_PortCommandsActOnTheirPort_clauses :
    acts (port3 { TPort.reset with st := .locked, en := true }) (.portEnable 3 0 0xFFFF 0xFFFF)
    ∧ (let d := { base with ports := [(3, { TPort.reset with st := .unlocked })] }
       acts d (.portEnable 3 1 0xFFFF 0xFFFF) ∧ (d.port 3).st ≠ .off)
    ∧ (∀ a b, (base.port 0).maskNext ≠ some (a, b, 400)) ∧ presetOf 2 = some (8, 32, 0)
    ∧ (bit 1 0 = true ∧ bit base.pdm.mask 0 = false ∧ bit 1 1 = false) :=
  ⟨acts_of (by decide +kernel), ⟨acts_of (by decide +kernel), by decide⟩, fun _ _ => nofun, rfl, by decide⟩

theorem witness_ProtectionAndFaultCommandsAct_clauses :
    (let d := { base with chans := [(46, { Chan.reset with st := .latched })] }
     acts d (.faultClear (2 ^ 46)) ∧ d.held 46 = false)
    ∧ (let d := { base with chans := [(46, { Chan.reset with st := .latched })], emg := { base.emg with mute := true, hard := true } }
       acts d (.faultClear (2 ^ 46)) ∧ d.held 46 = true)
    ∧ (let d := { base with dies := [(0, { Die.reset with expert := true })] }
       acts d (.policy 1 1 1) ∧ (d.die (dieOf 7)).expert = true)
    ∧ acts { bridged with chans := [(46, { Chan.reset with prot := { Prot.reset with profile := 1 } })] } (.protProfile (2 ^ 46) 0)
    ∧ acts bridged (.ocLimits (2 ^ 46) 500 8 8 100 100 3) ∧ 47 ∈ bridged.withMates (2 ^ 46)
    ∧ ({ base.emg with cmdSet := true, cmdHard := true, cmdRamp := 20 } : Emg).any ≠ base.emg.any :=
  ⟨⟨acts_of (by decide +kernel), by decide +kernel⟩, ⟨acts_of (by decide +kernel), by decide +kernel⟩,
   ⟨acts_of (by decide +kernel), by decide⟩, acts_of (by decide +kernel), acts_of (by decide +kernel), by decide, by decide⟩

theorem witness_DiagnosticCommandsStartTests_clauses :
    acts { base with acou := { base.acou with wins := [⟨0, 60000, 0⟩] } } (.diagRun 1 0 1)
    ∧ acts base (.pilot 1 0 100 (-7680))
    ∧ (∀ t ∈ base.tags, t.2.uncommitted = true → t.2.aims (Cmd.disables (.pilot 1 0 100 (-7680))) = false)
    ∧ (∀ n, n < 48 → (base.chan n).diag.ph = .idle) ∧ base.acou.queue = [] :=
  ⟨acts_of (by decide +kernel), acts_of (by decide +kernel), by decide, by decide +kernel, by decide⟩

theorem witness_SecureAndMordantCommandsAct_clauses :
    acts { base with nvm := { base.nvm with
      imgB := { base.nvm.imgB with hdr := some ⟨1, 5, 0, 4096, 0, true, true, false⟩, staging := true } } } (.stageCommit 0)
    ∧ base.commits (base.region 0) = none ∧ (base.fn 1).ifenced = false
    ∧ acts { base with nvm := { base.nvm with imgB := { base.nvm.imgB with staging := true } } } (.stage 0 0 4096 0) :=
  ⟨acts_of (by decide +kernel), by decide +kernel, by decide, acts_of (by decide +kernel)⟩

theorem witness_RingAndDecimationCommandsAct_rings : acts (ring5 (ringR 7)) (.ringDestroy 5)
    ∧ (ring5 (ringR 7)).ring 5 = ringR 7 ∧ (∀ o, (base.obj o).waitTag ≠ some 400)
    ∧ acts (ring5 { ringR 7 with st := .error }) (.ringDestroy 5)
    ∧ acts (ring5 { ringR 10 with st := .error, staged := [[1]] }) (.ringSetup 5 { cplRing with type := 10, esize := 64 })
    ∧ (let d := { base with fns := [(1, { Fn.reset with trnEn := true })],
                            trn := { base.trn with tlb := [{ dom := 1, base := 0, entry := 1, level := 2, size := 8192 }] } }
       acts d (.ringSetup 5 cplRing) ∧ d.link.up = true ∧ (d.fn 1).fenced = false ∧ (d.lookFault 1 (4096 + 512) true).isSome = true)
    ∧ acts { base with link := { base.link with speed := 1, width := 1, rdRes := 300 } } (.isoReserve 31 160)
    ∧ acts (tagDev 401 (waiting (.decSwap 1)) base) (.decPreset 1 1) := by
  refine ⟨acts_of (by decide +kernel), by decide, fun o => by simp [base, Dev.obj, Tab.get, State.reset, Dev.reset, Obj.reset],
    acts_of (by decide +kernel), acts_of (by decide +kernel), ⟨acts_of (by decide +kernel), by decide, by decide, by decide +kernel⟩,
    acts_of (by decide +kernel), acts_of (by decide +kernel)⟩

end Sys2Proof.Tests
end

section
/-! PROOFS. The lock file's forced release (R108) and the mailbox file's withdrawal of queued notices (R95), from one
rule per state operation: a lock write, and the acknowledgement of a notice. -/

namespace Sys2Proof.Machine

/-! ### The lock file (R105, R108) -/

@[simp] theorem Locks.who_give_same (l : Locks) (n m : Nat) : (l.give n m).who n = m := Tab.get_set_same ..

theorem Locks.who_give_other (l : Locks) {n k : Nat} (m : Nat) (h : k ≠ n) : (l.give n m).who k = l.who k :=
  Tab.get_set_other _ _ _ h

/-- No master ID is a forcing value, so LOCK_FORCE never takes the owner's own release. -/
theorem masterId_lt_force (m : Master) (nn : Nat) : masterId m < 0x100 + nn := by
  cases m <;> simp only [masterId] <;> omega

theorem masterId_eq_three_iff (m : Master) : masterId m = 3 ↔ m = .pf1 := by
  cases m <;> decide

/-- PF1 names the present owner of a held lock. -/
theorem State.lockWrite_forced {s : State} {n : Nat} (held : s.locks.who n ≠ 0) :
    s.lockWrite 3 n (0x100 + s.locks.who n)
      = { s with locks := { s.locks.give n 0 with forced := satInc 65535 s.locks.forced },
                 dev := s.dev.alarm 0x010C n (s.locks.who n) } := by
  have notOwn : ¬(0x100 + s.locks.who n = 3) := by omega
  simp [State.lockWrite, notOwn, held]

/-- A write that neither the owner nor PF1 may make. -/
theorem State.lockWrite_ignored {s : State} {m n v : Nat} (notOwn : ¬(v = m ∧ s.locks.who n = m))
    (notForced : ¬(m = 3 ∧ v = 0x100 + s.locks.who n ∧ s.locks.who n ≠ 0)) :
    s.lockWrite m n v = { s with locks := s.locks.ignore } := by
  have forced : ¬((m = 3 ∧ v = 0x100 + s.locks.who n) ∧ s.locks.who n ≠ 0) := by rwa [and_assoc]
  simp only [State.lockWrite, Bool.and_eq_true, decide_eq_true_eq, if_neg notOwn, if_neg forced]

/-- LOCK_FORCE from a master that reaches the lock file is the lock write of 0x01nn. -/
theorem exec_lockForce {m : Master} {n nn : Nat} {s : State} (hn : n < 32) (hnn : nn < 256) (live : s.dev.live = true)
    (reach : s.dev.reaches m = true) : exec (.lockForce m n nn) s = .next (s.lockWrite (masterId m) n (0x100 + nn)) := by
  change execLockForce m n nn s = _
  simp [execLockForce, hn, live, reach, Nat.mod_eq_of_lt hnn]

/-! ### Acknowledgements (R92, R93) -/

@[simp] theorem Mbx.port_setPort (m : Mbx) (side : Bool) (p : Port) : (m.setPort side p).port side = p := by
  cases side <;> rfl

@[simp] theorem Mbx.fifo_setPort (m : Mbx) (side : Bool) (p : Port) : (m.setPort side p).fifo = m.fifo := by
  cases side <;> rfl

/-- The acknowledgement of a notice (R88). -/
def Notice.ack (code : Nat) (n : Notice) : Ack := { tag := n.tag, code := code, late := n.late }

/-- A channel once one of its notices was acknowledged (R92). -/
def Mbx.acked (m : Mbx) (n : Notice) (code : Nat) : Mbx :=
  { m with fifo := m.fifo.erase n,
           discard := if code = RESET_DISCARD then satInc 65535 m.discard else m.discard }.updPort n.side
    (fun p => { p with acks := p.acks ++ [n.ack code] })

@[simp] theorem Mbx.fifo_acked (m : Mbx) (n : Notice) (code : Nat) : (m.acked n code).fifo = m.fifo.erase n :=
  Mbx.fifo_setPort ..

@[simp] theorem Mbx.acks_acked (m : Mbx) (n : Notice) (code : Nat) :
    ((m.acked n code).port n.side).acks = (m.port n.side).acks ++ [n.ack code] :=
  congrArg Port.acks (Mbx.port_setPort ..)

/-- An acknowledgement changes its channel; a host port's message may follow (R93). -/
theorem Dev.signalled_ackNotice (d : Dev) (ch : Nat) (n : Notice) (code : Nat) :
    (d.setMbx ch ((d.mbx ch).acked n code)).signalled (d.ackNotice ch n code) := by
  change Dev.signalled _ (if n.side then d.setMbx ch ((d.mbx ch).acked n code)
    else (d.setMbx ch ((d.mbx ch).acked n code)).mbxMsg ch)
  split
  · exact Dev.signalled_refl _
  · exact Dev.signalled_mbxMsg ..

/-- Signalling leaves the mailbox file as it is. -/
theorem Dev.mbxs_of_signalled {d e : Dev} (h : d.signalled e) : e.mbxs = d.mbxs := by rw [h.1]

theorem Dev.mbx_of_signalled {d e : Dev} (h : d.signalled e) (c : Nat) : e.mbx c = d.mbx c :=
  congrArg (Tab.get Mbx.reset · c) (Dev.mbxs_of_signalled h)

@[simp] theorem Dev.mbx_ackNotice (d : Dev) (ch : Nat) (n : Notice) (code : Nat) :
    (d.ackNotice ch n code).mbx ch = (d.mbx ch).acked n code := by
  rw [Dev.mbx_of_signalled (d.signalled_ackNotice ch n code), setMbx_mbx]

/-! ### A step on one channel -/

/-- At most one mailbox channel differs, and messages have left. -/
def Dev.channelOnly (ch : Nat) (d e : Dev) : Prop :=
  (∀ c, c ≠ ch → e.mbx c = d.mbx c) ∧ Dev.signalled { d with mbxs := e.mbxs } e

theorem Dev.channelOnly_refl (ch : Nat) (d : Dev) : Dev.channelOnly ch d d := ⟨fun _ _ => rfl, d.signalled_refl⟩

/-- Signalling does not depend on what the mailbox file holds. -/
theorem Dev.signalled_with_mbxs {d e : Dev} (t : Tab Mbx) (h : d.signalled e) :
    Dev.signalled { d with mbxs := t } { e with mbxs := t } := by
  obtain ⟨rest, fns, link⟩ := h
  exact ⟨by rw [rest], fns, link⟩

theorem Dev.channelOnly_trans {ch : Nat} {d e f : Dev} (a : Dev.channelOnly ch d e) (b : Dev.channelOnly ch e f) :
    Dev.channelOnly ch d f := by
  obtain ⟨aOther, aSig⟩ := a
  obtain ⟨bOther, bSig⟩ := b
  exact ⟨fun c hc => (bOther c hc).trans (aOther c hc),
    Dev.signalled_trans (Dev.signalled_with_mbxs (d := { d with mbxs := e.mbxs }) f.mbxs aSig) bSig⟩

theorem Dev.channelOnly_ackNotice (d : Dev) (ch : Nat) (n : Notice) (code : Nat) :
    Dev.channelOnly ch d (d.ackNotice ch n code) := by
  have sig := d.signalled_ackNotice ch n code
  refine ⟨fun c hc => ?_, ?_⟩
  · rw [Dev.mbx_of_signalled sig, setMbx_mbx_other _ _ _ _ hc]
  · rw [Dev.mbxs_of_signalled sig]; exact sig

/-! ### Acknowledging several notices -/

/-- Every notice of a list is acknowledged with the same code, in order. -/
def Dev.ackAll (ch code : Nat) (d : Dev) (ns : List Notice) : Dev := ns.foldl (fun d n => d.ackNotice ch n code) d

theorem Dev.channelOnly_ackAll (ch code : Nat) (ns : List Notice) : ∀ d : Dev, Dev.channelOnly ch d (d.ackAll ch code ns) := by
  induction ns with
  | nil => exact Dev.channelOnly_refl ch
  | cons n ns ih => exact fun d => Dev.channelOnly_trans (d.channelOnly_ackNotice ch n code) (ih _)

theorem Dev.fifo_ackAll (ch code : Nat) (ns : List Notice) :
    ∀ d : Dev, ((d.ackAll ch code ns).mbx ch).fifo = ns.foldl List.erase (d.mbx ch).fifo := by
  induction ns with
  | nil => exact fun _ => rfl
  | cons n ns ih =>
    intro d
    change (((d.ackNotice ch n code).ackAll ch code ns).mbx ch).fifo = _
    rw [ih, Dev.mbx_ackNotice, Mbx.fifo_acked, List.foldl_cons]

/-- The acknowledgements enter their port's queue in the order of the notices. -/
theorem Dev.acks_ackAll (ch code : Nat) (side : Bool) (ns : List Notice) : ∀ d : Dev, (∀ n ∈ ns, n.side = side) →
    (((d.ackAll ch code ns).mbx ch).port side).acks = ((d.mbx ch).port side).acks ++ ns.map (Notice.ack code) := by
  induction ns with
  | nil => exact fun _ _ => (List.append_nil _).symm
  | cons n ns ih =>
    intro d sides
    obtain ⟨rfl, rest⟩ := List.forall_mem_cons.1 sides
    change ((((d.ackNotice ch n code).ackAll ch code ns).mbx ch).port n.side).acks = _
    rw [ih _ rest, Dev.mbx_ackNotice, Mbx.acks_acked, List.append_assoc, List.map_cons, List.singleton_append]

/-- Erasing entries other than the head leaves the head in place. -/
theorem foldl_erase_cons {α : Type} [BEq α] [LawfulBEq α] {a : α} (ns : List α) :
    ∀ l : List α, a ∉ ns → ns.foldl List.erase (a :: l) = a :: ns.foldl List.erase l := by
  induction ns with
  | nil => exact fun _ _ => rfl
  | cons n ns ih =>
    intro l absent
    obtain ⟨other, rest⟩ := not_or.1 (fun h => absent (List.mem_cons.2 h))
    rw [List.foldl_cons, List.foldl_cons, List.erase_cons_tail (by simp only [beq_iff_eq]; exact other), ih _ rest]

/-- Removing, one by one, the entries that meet a condition leaves those that do not, copies included. -/
theorem foldl_erase_filter {α : Type} [BEq α] [LawfulBEq α] (p : α → Bool) (l : List α) :
    (l.filter p).foldl List.erase l = l.filter (fun a => !p a) := by
  induction l with
  | nil => rfl
  | cons a l ih =>
    cases h : p a with
    | true =>
      rw [List.filter_cons_of_pos h, List.foldl_cons, List.erase_cons_head, ih,
        List.filter_cons_of_neg (by rw [h]; decide)]
    | false =>
      have stays : a ∉ l.filter p := fun hm => Bool.false_ne_true (h.symm.trans (List.mem_filter.1 hm).2)
      rw [List.filter_cons_of_neg (by rw [h]; decide), foldl_erase_cons _ _ stays, ih,
        List.filter_cons_of_pos (by rw [h]; rfl)]

/-! ### WDRAW (R95) -/

/-- The notices that WDRAW of a port acknowledges: QUEUED ones of that port. -/
def Notice.queuedAt (side : Bool) (n : Notice) : Bool := n.side = side && n.st = .queued

theorem Dev.withdraw_eq (d : Dev) (side : Bool) (ch : Nat) :
    d.withdraw side ch = d.ackAll ch CANCELLED ((d.mbx ch).fifo.filter (Notice.queuedAt side)) := rfl

theorem Dev.channelOnly_withdraw (d : Dev) (side : Bool) (ch : Nat) : Dev.channelOnly ch d (d.withdraw side ch) :=
  Dev.channelOnly_ackAll ..

/-- What stays in the FIFO: TAKEN notices and those of the other port. -/
theorem Dev.fifo_withdraw (d : Dev) (side : Bool) (ch : Nat) :
    ((d.withdraw side ch).mbx ch).fifo = (d.mbx ch).fifo.filter (fun n => !n.queuedAt side) := by
  rw [Dev.withdraw_eq, Dev.fifo_ackAll, foldl_erase_filter]

theorem Dev.acks_withdraw (d : Dev) (side : Bool) (ch : Nat) :
    (((d.withdraw side ch).mbx ch).port side).acks
      = ((d.mbx ch).port side).acks ++ ((d.mbx ch).fifo.filter (Notice.queuedAt side)).map (Notice.ack CANCELLED) := by
  refine Dev.acks_ackAll ch CANCELLED side _ d (fun n hn => ?_)
  have picked : n.queuedAt side = true := (List.mem_filter.1 hn).2
  simp only [Notice.queuedAt, Bool.and_eq_true, decide_eq_true_eq] at picked
  exact picked.1

/-- A path reaches the device only while the engines run. -/
theorem Dev.live_of_onPath {d : Dev} {p : Path} (h : d.onPath p = true) : d.live = true := by
  cases p with
  | tw => exact h
  | pf0 | pf1 => exact (Bool.and_eq_true_iff.1 h).1

/-- WDRAW over a path that owns the channel. -/
theorem exec_wdraw {p : Path} {ch : Nat} {s : State} (path : s.dev.onPath p = true) (owns : pathOwns p ch = true) :
    exec (.wdraw p ch) s = .next { s with dev := s.dev.withdraw (isSide p) ch } := by
  change execWdraw p ch s = _
  simp [execWdraw, State.onLive_live (Dev.live_of_onPath path), path, owns]

end Sys2Proof.Machine

namespace Sys2Proof.Proofs
open Sys2Proof Sys2Proof.Machine

/-- Settles O10: a write of 0x01nn is never the owner's own release, so it is the forced release where PF1 names the
owner of a held lock, and the counted, ignored write otherwise. -/
theorem forcedReleaseIsForPf1 : Obligations.ForcedReleaseIsForPf1 := by
  unfold Obligations.ForcedReleaseIsForPf1
  intro m n nn s hn hnn live reach
  refine ⟨_, exec_lockForce hn hnn live reach, ?_⟩
  by_cases forces : m = .pf1 ∧ nn = s.locks.who n ∧ nn ≠ 0
  · obtain ⟨rfl, rfl, held⟩ := forces
    rw [(masterId_eq_three_iff .pf1).2 rfl, State.lockWrite_forced held]
    refine ⟨rfl, rfl, fun _ _ _ => ⟨Locks.who_give_same .., fun k hk => Locks.who_give_other _ _ hk, rfl, rfl, rfl⟩, ?_⟩
    rintro (notPf1 | other | free)
    · exact absurd rfl notPf1
    · exact absurd rfl other
    · exact absurd free held
  · have notOwn : ¬(0x100 + nn = masterId m ∧ s.locks.who n = masterId m) :=
      fun own => Nat.ne_of_gt (masterId_lt_force m nn) own.1
    have notForced : ¬(masterId m = 3 ∧ 0x100 + nn = 0x100 + s.locks.who n ∧ s.locks.who n ≠ 0) := by
      rintro ⟨pf1, names, held⟩
      have owner : nn = s.locks.who n := Nat.add_left_cancel names
      exact forces ⟨(masterId_eq_three_iff m).1 pf1, owner, owner ▸ held⟩
    rw [State.lockWrite_ignored notOwn notForced]
    exact ⟨rfl, rfl, fun pf1 owner held => absurd ⟨pf1, owner, held⟩ forces, fun _ => ⟨fun _ => rfl, rfl, rfl, rfl⟩⟩

/-- Settles O13: WDRAW acknowledges the QUEUED notices of its port one by one, each on that channel alone. -/
theorem withdrawCancelsQueuedNotices : Obligations.WithdrawCancelsQueuedNotices := by
  unfold Obligations.WithdrawCancelsQueuedNotices
  intro p ch s path owns
  obtain ⟨others, signals⟩ := s.dev.channelOnly_withdraw (isSide p) ch
  exact ⟨_, exec_wdraw path owns, others, signals, Dev.fifo_withdraw .., Dev.acks_withdraw ..⟩

end Sys2Proof.Proofs
end
